-- ==== Sys2Proof/Word.lean ====
section
/-! DEFINITION. The word types of the block (00_scope.md R8: all values are unsigned, bit 0 is the least significant). -/

namespace Sys2Proof

/-- A byte: a register address, a pin index, a device-select code, an opcode or a byte on the wire. -/
abbrev Byte := BitVec 8

/-- A 16-bit value: a pin mask, a shadow, a select-line id, RESULT. -/
abbrev Half := BitVec 16

/-- A bus clock frequency in hertz (10_state.md R29). -/
abbrev Speed := BitVec 32

/-- A command word (30_encoding.md R71, R77: always 64 bits). -/
abbrev CommandWord := BitVec 64

end Sys2Proof
end

