-- ==== Sys2Proof/Config.lean ====
section
/-! DEFINITION. The parameters of the block (00_scope.md R7) and the free values its spec calls draws (R12). -/

namespace Sys2Proof.Config

/-- `DIR_SENTINEL_MODE`: how PORT_MODE maps the two sentinels to direction words (42_pin_port.md R160). -/
inductive DirSentinelMode where
  | level
  | modeConst
  deriving DecidableEq, Repr

/-- `PORT_WRITE_REG`: the register a port-wide output write targets, GPIO (0x12) or OLAT (0x14). -/
inductive PortWriteReg where
  | gpio
  | olat
  deriving DecidableEq, Repr

/-- The ten parameters of R7. The model takes them as an argument: State carries one such record, no step changes it,
and a statement over every state holds for every value. -/
structure Params where
  /-- `MAX_SPEED_HZ`. -/
  maxSpeedHz : Speed
  /-- `CTRL_ADDR_ON`. -/
  ctrlAddrOn : Byte
  /-- `CTRL_ADDR_OFF`. -/
  ctrlAddrOff : Byte
  /-- `SENT_LOW`. -/
  sentLow : Half
  /-- `SENT_HIGH`. -/
  sentHigh : Half
  /-- `DIR_SENTINEL_MODE`. -/
  dirSentinelMode : DirSentinelMode
  /-- `PORT_WRITE_REG`. -/
  portWriteReg : PortWriteReg
  /-- `DUMMY_BYTE`. -/
  dummyByte : Byte
  /-- `STARTUP_DELAY`, opaque: `none` where no length is given. No rule reads it. -/
  startupDelay : Option Nat
  /-- `BUS_CONFIG`, opaque: `none` where no setting is given. No rule reads it. -/
  busConfig : Option Nat
  deriving DecidableEq, Repr

/-- The column "spec default" of R7, the values 95_test_vectors.md uses. DESIGN CHOICE of the spec (D4 to D8, D12, D14;
G1 to G3); unsafe where a claim rests on them (log 6). -/
def specDefault : Params where
  maxSpeedHz := 10000000
  ctrlAddrOn := 0x08
  ctrlAddrOff := 0x00
  sentLow := 0x0000
  sentHigh := 0x0001
  dirSentinelMode := .level
  portWriteReg := .gpio
  dummyByte := 0x00
  startupDelay := none
  busConfig := none

/-- A byte of the bus oracle (10_state.md R41) that the state does not script. DESIGN CHOICE of form; safe (log 4): nothing
constrains it. -/
opaque freeByte : Nat → Byte

/-- The value of the n-th `draw()` (00_scope.md R12). DESIGN CHOICE of form; safe (log 5): nothing constrains it. -/
opaque freeHalf : Nat → Half

end Sys2Proof.Config
end

