-- ==== Sys2Proof/Syntax.lean ====
section
/-! DEFINITION. The commands (30_encoding.md R74), the fields of a command word (R71) and the register names (10_state.md
R30). -/

namespace Sys2Proof

/-- One constructor per command of R74. An operand has exactly the width the command uses (R73): a field that must be 0 has
no operand. -/
inductive Instr where
  /-- CONFIGURE (40_configuration.md R100): select-line id (D), device-select code (A), requested speed (S). -/
  | configure (sel : Half) (code : Byte) (speed : Speed)
  /-- SET_SPEED (R105): requested speed (S). -/
  | setSpeed (hz : Speed)
  /-- BEGIN (R106): the skip-bus-init flag, A[0]. -/
  | beginInit (skip : Bool)
  /-- REG_READ8 (41_register_access.md R123): register address (A). -/
  | regRead8 (reg : Byte)
  /-- REG_READ16 (R124): register address (A). -/
  | regRead16 (reg : Byte)
  /-- REG_WRITE8 (R125): register address (A), byte (D[7:0]). -/
  | regWrite8 (reg data : Byte)
  /-- REG_WRITE8_BOTH (R126): register address (A), byte (D[7:0]). -/
  | regWrite8Both (reg data : Byte)
  /-- REG_WRITE16 (R127): register address (A), value (D). -/
  | regWrite16 (reg : Byte) (value : Half)
  /-- PORT_MODE (42_pin_port.md R150): direction mask or sentinel (D). -/
  | portMode (value : Half)
  /-- PIN_MODE (R151): pin index (A), direction (D[0], true = input). -/
  | pinMode (pin : Byte) (input : Bool)
  /-- PORT_WRITE (R152): output mask or sentinel (D). -/
  | portWrite (value : Half)
  /-- PIN_WRITE (R153): pin index (A), level (D[0], true = high). -/
  | pinWrite (pin : Byte) (level : Bool)
  /-- PIN_WRITE_FAST (R154): pin index (A), level (D[0], true = high). -/
  | pinWriteFast (pin : Byte) (level : Bool)
  /-- PORT_UPDATE (R155). -/
  | portUpdate
  /-- PORT_READ (R156). -/
  | portRead
  /-- PIN_READ (R157): pin index (A). -/
  | pinRead (pin : Byte)
  /-- PIN_READ_FAST (R158): pin index (A). -/
  | pinReadFast (pin : Byte)
  /-- PORT_PULLUP (R159): pull-up mask or sentinel (D). -/
  | portPullup (value : Half)
  deriving DecidableEq, Repr

/-- The eighteen commands without their operands. -/
inductive Command where
  | configure | setSpeed | beginInit
  | regRead8 | regRead16 | regWrite8 | regWrite8Both | regWrite16
  | portMode | pinMode | portWrite | pinWrite | pinWriteFast | portUpdate
  | portRead | pinRead | pinReadFast | portPullup
  deriving DecidableEq, Repr

/-- The command an instruction is. -/
def Instr.command : Instr → Command
  | .configure _ _ _ => .configure
  | .setSpeed _ => .setSpeed
  | .beginInit _ => .beginInit
  | .regRead8 _ => .regRead8
  | .regRead16 _ => .regRead16
  | .regWrite8 _ _ => .regWrite8
  | .regWrite8Both _ _ => .regWrite8Both
  | .regWrite16 _ _ => .regWrite16
  | .portMode _ => .portMode
  | .pinMode _ _ => .pinMode
  | .portWrite _ => .portWrite
  | .pinWrite _ _ => .pinWrite
  | .pinWriteFast _ _ => .pinWriteFast
  | .portUpdate => .portUpdate
  | .portRead => .portRead
  | .pinRead _ => .pinRead
  | .pinReadFast _ => .pinReadFast
  | .portPullup _ => .portPullup

/-- The fields of a command word (R71), before anything is checked. -/
structure RawCommand where
  cmd : Byte
  a : Byte
  d : Half
  s : Speed
  deriving DecidableEq, Repr

/-- The logical registers of the peripheral (10_state.md R30), by the mnemonics the spec gives them. -/
inductive RegName where
  | ctrl | dir | pullup | gpio | inten | pol | defval | intf | intcap | olat | intcon
  deriving DecidableEq, Repr

end Sys2Proof
end

