-- ==== Sys2Proof/WellFormed.lean ====
section
/-! DEFINITION. When a command word spells a command: its code is assigned and every field listed under "must be 0" is 0
(30_encoding.md R74 to R76, read off the column "must be 0"). `Instr` carries no field that must be 0, so every `Instr` is
well-formed by its type; the check is of the raw fields. -/

namespace Sys2Proof

/-- `A` is 0. -/
def RawCommand.aZero (r : RawCommand) : Bool := r.a == 0

/-- `A[7:1]` is 0. -/
def RawCommand.aHighZero (r : RawCommand) : Bool := r.a.extractLsb' 1 7 == 0

/-- `D` is 0. -/
def RawCommand.dZero (r : RawCommand) : Bool := r.d == 0

/-- `D[15:8]` is 0. -/
def RawCommand.dByteZero (r : RawCommand) : Bool := r.d.extractLsb' 8 8 == 0

/-- `D[15:1]` is 0. -/
def RawCommand.dBitZero (r : RawCommand) : Bool := r.d.extractLsb' 1 15 == 0

/-- `S` is 0. -/
def RawCommand.sZero (r : RawCommand) : Bool := r.s == 0

/-- The column "must be 0" of R74. -/
def RawCommand.mustBeZero (r : RawCommand) : Command → Bool
  | .configure => true
  | .setSpeed => r.aZero && r.dZero
  | .beginInit => r.aHighZero && r.dZero && r.sZero
  | .regRead8 => r.dZero && r.sZero
  | .regRead16 => r.dZero && r.sZero
  | .regWrite8 => r.dByteZero && r.sZero
  | .regWrite8Both => r.dByteZero && r.sZero
  | .regWrite16 => r.sZero
  | .portMode => r.aZero && r.sZero
  | .pinMode => r.dBitZero && r.sZero
  | .portWrite => r.aZero && r.sZero
  | .pinWrite => r.dBitZero && r.sZero
  | .pinWriteFast => r.dBitZero && r.sZero
  | .portUpdate => r.aZero && r.dZero && r.sZero
  | .portRead => r.aZero && r.dZero && r.sZero
  | .pinRead => r.dZero && r.sZero
  | .pinReadFast => r.dZero && r.sZero
  | .portPullup => r.aZero && r.sZero

/-- The column "CMD" of R74. -/
def Command.assignedCode : Command → Byte
  | .configure => 0x01
  | .setSpeed => 0x02
  | .beginInit => 0x03
  | .regRead8 => 0x10
  | .regRead16 => 0x11
  | .regWrite8 => 0x12
  | .regWrite8Both => 0x13
  | .regWrite16 => 0x14
  | .portMode => 0x20
  | .pinMode => 0x21
  | .portWrite => 0x22
  | .pinWrite => 0x23
  | .pinWriteFast => 0x24
  | .portUpdate => 0x25
  | .portRead => 0x26
  | .pinRead => 0x27
  | .pinReadFast => 0x28
  | .portPullup => 0x29

/-- The raw fields spell the command `c`. -/
def RawCommand.wellFormed (r : RawCommand) (c : Command) : Bool :=
  r.cmd == c.assignedCode && r.mustBeZero c

end Sys2Proof
end

