-- ==== Sys2Proof/Decode.lean ====
section
/-! DEFINITION. From a command word to a command and back (30_encoding.md R71 to R77, opcode_table.json). -/

namespace Sys2Proof

/-- `cmd.CMD = w[7:0]` (R71). -/
def cmdField (w : CommandWord) : Byte := w.extractLsb' 0 8

/-- `cmd.A = w[15:8]` (R71). -/
def aField (w : CommandWord) : Byte := w.extractLsb' 8 8

/-- `cmd.D = w[31:16]` (R71). -/
def dField (w : CommandWord) : Half := w.extractLsb' 16 16

/-- `cmd.S = w[63:32]` (R71). -/
def sField (w : CommandWord) : Speed := w.extractLsb' 32 32

/-- `D[7:0]`, a data byte (R73). -/
def dataByte (w : CommandWord) : Byte := w.extractLsb' 16 8

/-- `D[0]`, a one-bit operand (R73). -/
def dataBit (w : CommandWord) : Bool := w.getLsbD 16

/-- `A[0]`, the skip-bus-init flag (R73). -/
def skipBit (w : CommandWord) : Bool := w.getLsbD 8

/-- The four fields of a word. -/
def rawCommand (w : CommandWord) : RawCommand :=
  { cmd := cmdField w, a := aField w, d := dField w, s := sField w }

/-- The word with the four fields given (R71). -/
def pack (cmd a : Byte) (d : Half) (s : Speed) : CommandWord :=
  cmd.setWidth 64 ||| a.setWidth 64 <<< 8 ||| d.setWidth 64 <<< 16 ||| s.setWidth 64 <<< 32

/-- One row of opcode_table.json: a command, its mask and its match. -/
structure OpcodeRow where
  command : Command
  mask : CommandWord
  pattern : CommandWord
  deriving DecidableEq, Repr

/-- Rows 0x01 to 0x14 of opcode_table.json. -/
def configAndRegisterRows : List OpcodeRow :=
  [⟨.configure, 0x00000000000000FF, 0x01⟩,
   ⟨.setSpeed, 0x00000000FFFFFFFF, 0x02⟩,
   ⟨.beginInit, 0xFFFFFFFFFFFFFEFF, 0x03⟩,
   ⟨.regRead8, 0xFFFFFFFFFFFF00FF, 0x10⟩,
   ⟨.regRead16, 0xFFFFFFFFFFFF00FF, 0x11⟩,
   ⟨.regWrite8, 0xFFFFFFFFFF0000FF, 0x12⟩,
   ⟨.regWrite8Both, 0xFFFFFFFFFF0000FF, 0x13⟩,
   ⟨.regWrite16, 0xFFFFFFFF000000FF, 0x14⟩]

/-- Rows 0x20 to 0x29 of opcode_table.json. -/
def pinAndPortRows : List OpcodeRow :=
  [⟨.portMode, 0xFFFFFFFF0000FFFF, 0x20⟩,
   ⟨.pinMode, 0xFFFFFFFFFFFE00FF, 0x21⟩,
   ⟨.portWrite, 0xFFFFFFFF0000FFFF, 0x22⟩,
   ⟨.pinWrite, 0xFFFFFFFFFFFE00FF, 0x23⟩,
   ⟨.pinWriteFast, 0xFFFFFFFFFFFE00FF, 0x24⟩,
   ⟨.portUpdate, 0xFFFFFFFFFFFFFFFF, 0x25⟩,
   ⟨.portRead, 0xFFFFFFFFFFFFFFFF, 0x26⟩,
   ⟨.pinRead, 0xFFFFFFFFFFFF00FF, 0x27⟩,
   ⟨.pinReadFast, 0xFFFFFFFFFFFF00FF, 0x28⟩,
   ⟨.portPullup, 0xFFFFFFFF0000FFFF, 0x29⟩]

/-- opcode_table.json. -/
def opcodeTable : List OpcodeRow := configAndRegisterRows ++ pinAndPortRows

/-- The row whose code, the low byte of its match, is `code` (60_exceptions.md R183, `lookup`). -/
def lookupRow (code : Byte) : Option OpcodeRow :=
  opcodeTable.find? fun row => cmdField row.pattern == code

/-- The command with the operands R74 takes from the word. -/
def operandsOf (w : CommandWord) : Command → Instr
  | .configure => .configure (dField w) (aField w) (sField w)
  | .setSpeed => .setSpeed (sField w)
  | .beginInit => .beginInit (skipBit w)
  | .regRead8 => .regRead8 (aField w)
  | .regRead16 => .regRead16 (aField w)
  | .regWrite8 => .regWrite8 (aField w) (dataByte w)
  | .regWrite8Both => .regWrite8Both (aField w) (dataByte w)
  | .regWrite16 => .regWrite16 (aField w) (dField w)
  | .portMode => .portMode (dField w)
  | .pinMode => .pinMode (aField w) (dataBit w)
  | .portWrite => .portWrite (dField w)
  | .pinWrite => .pinWrite (aField w) (dataBit w)
  | .pinWriteFast => .pinWriteFast (aField w) (dataBit w)
  | .portUpdate => .portUpdate
  | .portRead => .portRead
  | .pinRead => .pinRead (aField w)
  | .pinReadFast => .pinReadFast (aField w)
  | .portPullup => .portPullup (dField w)

/-- Why a word spells no command (R75, R76). -/
inductive DecodeError where
  /-- `CMD` is not assigned (R75). -/
  | illegalCommand
  /-- A field that must be 0 is not (R76). -/
  | reservedField
  deriving DecidableEq, Repr

/-- The command a word spells, in the order of checks of 60_exceptions.md R183. -/
def decode (w : CommandWord) : Except DecodeError Instr :=
  match lookupRow (cmdField w) with
  | none => .error .illegalCommand
  | some row => if w &&& row.mask = row.pattern then .ok (operandsOf w row.command) else .error .reservedField

/-- A one-bit operand in D[0] (R73). -/
def bitHalf (b : Bool) : Half := if b then 1 else 0

/-- A data byte in D[7:0] (R73). -/
def byteHalf (b : Byte) : Half := b.setWidth 16

/-- The word of a command (R71, R74). -/
def encode : Instr → CommandWord
  | .configure sel code speed => pack 0x01 code sel speed
  | .setSpeed hz => pack 0x02 0 0 hz
  | .beginInit skip => pack 0x03 (if skip then 1 else 0) 0 0
  | .regRead8 reg => pack 0x10 reg 0 0
  | .regRead16 reg => pack 0x11 reg 0 0
  | .regWrite8 reg data => pack 0x12 reg (byteHalf data) 0
  | .regWrite8Both reg data => pack 0x13 reg (byteHalf data) 0
  | .regWrite16 reg value => pack 0x14 reg value 0
  | .portMode value => pack 0x20 0 value 0
  | .pinMode pin input => pack 0x21 pin (bitHalf input) 0
  | .portWrite value => pack 0x22 0 value 0
  | .pinWrite pin level => pack 0x23 pin (bitHalf level) 0
  | .pinWriteFast pin level => pack 0x24 pin (bitHalf level) 0
  | .portUpdate => pack 0x25 0 0 0
  | .portRead => pack 0x26 0 0 0
  | .pinRead pin => pack 0x27 pin 0 0
  | .pinReadFast pin => pack 0x28 pin 0 0
  | .portPullup value => pack 0x29 0 value 0

/-- The low `nbits` bits of `w`, every bit above them 0, as a command word, if they fit one (R77). -/
def tableWord (nbits w : Nat) : Option CommandWord :=
  if w % 2 ^ nbits < 2 ^ 64 then some (BitVec.ofNat 64 (w % 2 ^ nbits)) else none

/-- What `decode` reads from the word `w`, numbered as opcode_table.json numbers its bits. -/
def decodeTableWord (nbits w : Nat) : Option Instr :=
  match tableWord nbits w with
  | none => none
  | some word =>
    match decode word with
    | .ok i => some i
    | .error _ => none

end Sys2Proof
end

