-- ==== Sys2Proof/Machine/State.lean ====
section
/-! DEFINITION. The state of the block (10_state.md), its events, its fault mark, and reset. -/

namespace Sys2Proof.Machine

/-- The events the block sends to its collaborators (10_state.md R40). -/
inductive Event where
  /-- `BUS_INIT(BUS_CONFIG)`. -/
  | busInit (config : Option Nat)
  /-- `SEL_INIT(selectLine)`: the line becomes an output and is driven high. -/
  | selInit (line : Half)
  /-- `DELAY(STARTUP_DELAY)`. -/
  | delay (length : Option Nat)
  /-- `RESERVE(speed)`. -/
  | reserve (speed : Speed)
  /-- `SEL(selectLine, level)`: true is high, idle; false is low, selected. -/
  | sel (line : Half) (level : Bool)
  /-- `XFER(tx, rx)`. -/
  | xfer (tx rx : Byte)
  /-- `RELEASE`. -/
  | release
  deriving DecidableEq, Repr

/-- The kinds of model fault (60_exceptions.md R185). -/
inductive FaultKind where
  | illegalCommand
  | reservedField
  | notConfigured
  | notBegun
  | doubleBegin
  | configAfterBegin
  deriving DecidableEq, Repr

/-- What the fault mark records (60_exceptions.md R181): the kind and the command word. -/
structure FaultMark where
  kind : FaultKind
  word : CommandWord
  deriving DecidableEq, Repr

/-- What the host may do between commands that changes the block (70_reset_and_hazards.md R213). -/
inductive HostMove where
  /-- Issue a command word. -/
  | command (word : CommandWord)
  /-- Reset the block. -/
  | reset
  deriving DecidableEq, Repr

/-- The state: the block's fields S0 to S13 of 10_state.md R22 (S6, `registerMap`, is constant), the model state R39 and R40
name, the parameters, and the model's inputs. -/
structure State where
  /-- The parameters (00_scope.md R7); no step changes them (log 6). -/
  params : Config.Params
  /-- S0 (R23). -/
  selectLine : Half
  /-- S1 (R24). -/
  addressingEnabled : Bool
  /-- S2 (R25). -/
  hardwareAddress : BitVec 3
  /-- S3 (R26). -/
  readOpcode : Byte
  /-- S4 (R27). -/
  writeOpcode : Byte
  /-- S5 (R29). -/
  transactionSpeed : Speed
  /-- S7 (R31). -/
  shadowDirection : Half
  /-- S8 (R32). -/
  shadowOutput : Half
  /-- S9 (R34). -/
  configured : Bool
  /-- S10 (R35). -/
  begun : Bool
  /-- S11, `RESULT` (R36). -/
  result : Half
  /-- S12 (R37): true is high, idle. -/
  csLevel : Bool
  /-- S13 (R38). -/
  reservationHeld : Bool
  /-- The fault mark (R39; 60_exceptions.md R181). -/
  fault : Option FaultMark
  /-- The event history (R40), oldest first. -/
  history : List Event
  /-- The bytes the peripheral will answer next (R41); past its end a byte is `Config.freeByte` (log 4). -/
  oracle : List Byte
  /-- The index of the next free value (00_scope.md R12; log 5). -/
  drawCount : Nat
  /-- What the host will do next, in order (R21; 70_reset_and_hazards.md R213; log 1). -/
  hostMoves : List HostMove
  deriving DecidableEq, Repr

/-- Why a step stops. -/
inductive Fault where
  /-- Raised by a step whose host move is a command word while the fault mark is set: the block takes no command
  (60_exceptions.md R181, R183). Safe: the spec gives no step there. -/
  | stopped (mark : FaultMark)
  deriving DecidableEq, Repr

/-- Why an instruction has no meaning. -/
inductive Refusal where
  /-- Raised by an arm of exec whose instruction is not modelled. Safe: no claim about it can be proved. No arm raises it
  now. -/
  | notModelled (mnemonic : String)
  deriving DecidableEq, Repr

/-- The block right after reset (70_reset_and_hazards.md R200, R203), for any parameters. The fields R22 leaves unspecified
are DESIGN CHOICE, unsafe: `selectLine` (log 7), the shadows (log 8), `result` (log 9), `csLevel` (log 10). -/
def State.resetWith (params : Config.Params) : State where
  params := params
  selectLine := 0
  addressingEnabled := false
  hardwareAddress := 0
  readOpcode := 0x01
  writeOpcode := 0x00
  transactionSpeed := 0
  shadowDirection := 0
  shadowOutput := 0
  configured := false
  begun := false
  result := 0
  csLevel := true
  reservationHeld := false
  fault := none
  history := []
  oracle := []
  drawCount := 0
  hostMoves := []

/-- The machine right after reset, with the spec defaults of 00_scope.md R7 for its parameters (log 6). -/
def State.reset : State := State.resetWith Config.specDefault

end Sys2Proof.Machine
end

