-- ==== Sys2Proof/Machine/Operands.lean ====
section
/-! DEFINITION. Operand forms: the register map, sentinels, pins, device-select codes, speeds and byte order. -/

namespace Sys2Proof.Machine

/-- The address of a logical register (10_state.md R30). -/
def registerAddress : RegName → Byte
  | .ctrl => 0x0A
  | .dir => 0x00
  | .pullup => 0x0C
  | .gpio => 0x12
  | .inten => 0x04
  | .pol => 0x02
  | .defval => 0x06
  | .intf => 0x0E
  | .intcap => 0x10
  | .olat => 0x14
  | .intcon => 0x08

/-- The width in bits R30 gives a logical register. The block checks none (20_memory.md R55). -/
def registerWidth : RegName → Nat
  | .ctrl => 8
  | .dir | .pullup | .gpio | .inten | .pol | .defval | .intf | .intcap | .olat | .intcon => 16

/-- The registers R30 marks read-only. The block does not enforce it (20_memory.md R55). -/
def registerReadOnly : RegName → Bool
  | .intf | .intcap => true
  | .ctrl | .dir | .pullup | .gpio | .inten | .pol | .defval | .olat | .intcon => false

/-- The address `PORT_WRITE_REG` stands for (00_scope.md R7). -/
def portWriteAddress (p : Config.Params) : Byte :=
  match p.portWriteReg with
  | .gpio => registerAddress .gpio
  | .olat => registerAddress .olat

/-- `decodeLevel` (00_scope.md R13). -/
def decodeLevel (p : Config.Params) (v : Half) : Half :=
  if v = p.sentHigh then 0xFFFF
  else if v = p.sentLow then 0x0000
  else v

/-- `decodeDir` (42_pin_port.md R160). -/
def decodeDir (p : Config.Params) (v : Half) : Half :=
  match p.dirSentinelMode with
  | .level => decodeLevel p v
  | .modeConst =>
    if v = p.sentLow then 0xFFFF
    else if v = p.sentHigh then 0x0000
    else v

/-- The pin a pin index names, if it is legal: the whole field must be 0..15 (42_pin_port.md R170). -/
def legalPin (pin : Byte) : Bool := pin.toNat ≤ 15

/-- `setBit` (42_pin_port.md R161). -/
def setBit (v : Half) (i : Nat) (b : Bool) : Half :=
  if b then v ||| (1#16 <<< i) else v &&& ~~~(1#16 <<< i)

/-- `zext_16(getBit(v, i))` (42_pin_port.md R161): 0 or 1. -/
def getBit (v : Half) (i : Nat) : Half := (v >>> i) &&& 1

/-- `validateCode` (40_configuration.md R101). -/
def validateCode (code : Byte) : Bool × BitVec 3 :=
  if 0x20 ≤ code ∧ code ≤ 0x27 then (true, code.extractLsb' 0 3) else (false, 0)

/-- `opcodes` (40_configuration.md R102): the read opcode and the write opcode. -/
def opcodes (enabled : Bool) (code : Byte) : Byte × Byte :=
  let c : Byte := if enabled then code else 0x00
  let w := c <<< 1
  (w ||| 0x01, w)

/-- `clampSpeed` (40_configuration.md R104). -/
def clampSpeed (p : Config.Params) (hz : Speed) : Speed :=
  if hz ≤ p.maxSpeedHz then hz else p.maxSpeedHz

/-- The control byte BEGIN writes (40_configuration.md R106, R107). -/
def controlByte (p : Config.Params) (enabled : Bool) : Byte :=
  if enabled then p.ctrlAddrOn else p.ctrlAddrOff

/-- `v[7:0]`. -/
def lowByte (v : Half) : Byte := v.extractLsb' 0 8

/-- `v[15:8]`. -/
def highByte (v : Half) : Byte := v.extractLsb' 8 8

/-- The bytes of a 16-bit value on the wire: low, then high (20_memory.md R51). -/
def wireBytes (v : Half) : List Byte := [lowByte v, highByte v]

/-- The value of one captured byte, zero-extended, or of two, low then high (20_memory.md R51, 41_register_access.md
R121). -/
def fromWire : List Byte → Half
  | [] => 0
  | [b] => b.setWidth 16
  | lo :: hi :: _ => hi ++ lo

end Sys2Proof.Machine
end

