-- ==== Sys2Proof/Machine/Ops.lean ====
section
/-! DEFINITION. The shared operations: events, the transaction framer (41_register_access.md R120 to R122), draws, raising a
model fault (60_exceptions.md R181) and the reset that ends it (70_reset_and_hazards.md R200). The block has no memory
(20_memory.md R50): its only reach outside its fields is these events. -/

namespace Sys2Proof.Machine

/-- `Emit(e)` (00_scope.md R10). -/
def emit (e : Event) (s : State) : State := { s with history := s.history ++ [e] }

/-- The byte the bus oracle gives next (10_state.md R41; log 4). -/
def nextRx (s : State) : Byte :=
  match s.oracle with
  | [] => Config.freeByte s.drawCount
  | b :: _ => b

/-- The state once the oracle has given a byte (log 4). -/
def takeRx (s : State) : State :=
  match s.oracle with
  | [] => { s with drawCount := s.drawCount + 1 }
  | _ :: rest => { s with oracle := rest }

/-- `Xfer(tx)` (00_scope.md R10): the byte received and the state after. -/
def xfer (tx : Byte) (s : State) : Byte × State :=
  (nextRx s, emit (.xfer tx (nextRx s)) (takeRx s))

/-- `draw()` (00_scope.md R12; log 5). -/
def draw (s : State) : Half × State :=
  (Config.freeHalf s.drawCount, { s with drawCount := s.drawCount + 1 })

/-- Bytes sent one after another, what is received discarded (41_register_access.md R120). -/
def sendAll : List Byte → State → State
  | [], s => s
  | b :: rest, s => sendAll rest (xfer b s).2

/-- `n` dummy bytes sent, what is received captured in order (41_register_access.md R120). -/
def capture : Nat → State → List Byte × State
  | 0, s => ([], s)
  | n + 1, s =>
    let (rx, s1) := xfer s.params.dummyByte s
    let (rest, s2) := capture n s1
    (rx :: rest, s2)

/-- Whether a transaction is a read or a write. -/
inductive Access where
  | read
  | write
  deriving DecidableEq, Repr

/-- The opcode byte of a transaction (30_encoding.md R79). -/
def opcodeByte (rw : Access) (s : State) : Byte :=
  match rw with
  | .read => s.readOpcode
  | .write => s.writeOpcode

/-- The start of a transaction: the reservation if one is taken, then select low (41_register_access.md R120). -/
def openFrame (res : Bool) (s : State) : State :=
  let s1 := if res then { emit (.reserve s.transactionSpeed) s with reservationHeld := true } else s
  { emit (.sel s.selectLine false) s1 with csLevel := false }

/-- The end of a transaction: select high, then the release of a reservation taken (41_register_access.md R120). -/
def closeFrame (res : Bool) (s : State) : State :=
  let s1 := { emit (.sel s.selectLine true) s with csLevel := true }
  if res then { emit .release s1 with reservationHeld := false } else s1

/-- `Transaction(rw, reg, tx, nrx)` (41_register_access.md R120): the captured bytes and the state after. -/
def transaction (rw : Access) (reg : Byte) (tx : List Byte) (nrx : Nat) (s : State) : List Byte × State :=
  let res := s.transactionSpeed != 0
  let s1 := sendAll (opcodeByte rw s :: reg :: tx) (openFrame res s)
  let (out, s2) := capture nrx s1
  (out, closeFrame res s2)

/-- `MemRead(reg, 1)` (41_register_access.md R121). -/
def memRead8 (reg : Byte) (s : State) : Half × State :=
  let (out, s1) := transaction .read reg [] 1 s
  (fromWire out, s1)

/-- `MemRead(reg, 2)` (41_register_access.md R121). -/
def memRead16 (reg : Byte) (s : State) : Half × State :=
  let (out, s1) := transaction .read reg [] 2 s
  (fromWire out, s1)

/-- `MemWrite(reg, 1, b)` (41_register_access.md R122). -/
def memWrite8 (reg b : Byte) (s : State) : State := (transaction .write reg [b] 0 s).2

/-- `MemWrite(reg, 2, v)` (41_register_access.md R122). -/
def memWrite16 (reg : Byte) (v : Half) (s : State) : State := (transaction .write reg (wireBytes v) 0 s).2

/-- `MemWritePair(reg, b)` (41_register_access.md R122). -/
def memWritePair (reg b : Byte) (s : State) : State := (transaction .write reg [b, b] 0 s).2

/-- `RESULT <- v`. -/
def writeResult (v : Half) (s : State) : State := { s with result := v }

/-- What the host reads as RESULT, at any time (70_reset_and_hazards.md R213). -/
def hostReadResult (s : State) : Half := s.result

/-- The number of the fault kind (60_exceptions.md R185). -/
def faultCode : FaultKind → Nat
  | .illegalCommand => 1
  | .reservedField => 2
  | .notConfigured => 3
  | .notBegun => 4
  | .doubleBegin => 5
  | .configAfterBegin => 6

/-- `raise Fault(kind)` on the command word `w` (60_exceptions.md R181, R189): the fault mark is set and nothing else changes
(log 2). -/
def raiseFault (kind : FaultKind) (w : CommandWord) (s : State) : Host.Outcome State Fault Refusal :=
  .next { s with fault := some ⟨kind, w⟩ }

/-- Reset (70_reset_and_hazards.md R200, R201): every field at its reset value, the fault mark cleared, the history empty,
no event. The fields R22 leaves unspecified become draws. The parameters, the oracle and the host's moves are not the
block's and stay (log 11). -/
def resetBlock (s : State) : State :=
  { State.resetWith s.params with
    selectLine := Config.freeHalf s.drawCount
    shadowDirection := Config.freeHalf (s.drawCount + 1)
    shadowOutput := Config.freeHalf (s.drawCount + 2)
    result := Config.freeHalf (s.drawCount + 3)
    csLevel := (Config.freeHalf (s.drawCount + 4)).getLsbD 0
    oracle := s.oracle
    drawCount := s.drawCount + 5
    hostMoves := s.hostMoves }

/-- The event asks for select low. -/
def Event.selectsLow : Event → Bool
  | .sel _ level => !level
  | .busInit _ | .selInit _ | .delay _ | .reserve _ | .xfer _ _ | .release => false

/-- The transaction count (10_state.md R42). -/
def transactionCount (s : State) : Nat := s.history.countP Event.selectsLow

end Sys2Proof.Machine
end

