-- ==== Sys2Proof/Machine/Flags.lean ====
section
/-! DEFINITION. The block has no condition codes (10_state.md R43). Its one-bit lifecycle state is `configured` and `begun`:
this file holds the check every command makes of them first (60_exceptions.md R183, R184). -/

namespace Sys2Proof.Machine

/-- `lifecycleCheck` (60_exceptions.md R184): the fault the command raises, if any. -/
def lifecycleCheck (i : Instr) (s : State) : Option FaultKind :=
  match i with
  | .configure _ _ _ => if s.begun then some .configAfterBegin else none
  | .setSpeed _ => none
  | .beginInit _ =>
    if s.configured = false then some .notConfigured
    else if s.begun then some .doubleBegin
    else none
  | .regRead8 _ | .regRead16 _ | .regWrite8 _ _ | .regWrite8Both _ _ | .regWrite16 _ _
  | .portMode _ | .pinMode _ _ | .portWrite _ | .pinWrite _ _ | .pinWriteFast _ _ | .portUpdate
  | .portRead | .pinRead _ | .pinReadFast _ | .portPullup _ =>
    if s.begun then none else some .notBegun

/-- The lifecycle check of `i` and then its rule (60_exceptions.md R183). The word recorded is the word of `i` (log 3). -/
def checked (i : Instr) (rule : State → State) (s : State) : Host.Outcome State Fault Refusal :=
  match lifecycleCheck i s with
  | some kind => raiseFault kind (encode i) s
  | none => .next (rule s)

end Sys2Proof.Machine
end

