-- ==== Sys2Proof/Machine/Configuration.lean ====
section
/-! DEFINITION. The configuration and initialisation commands (40_configuration.md). -/

namespace Sys2Proof.Machine

/-- The pseudocode of R100. -/
def configureRule (sel : Half) (code : Byte) (speed : Speed) (s : State) : State :=
  let (enabled, address) := validateCode code
  let (readOp, writeOp) := opcodes enabled code
  { s with
    addressingEnabled := enabled
    hardwareAddress := address
    readOpcode := readOp
    writeOpcode := writeOp
    selectLine := sel
    transactionSpeed := clampSpeed s.params speed
    configured := true }

/-- CONFIGURE (R100). -/
def execConfigure (sel : Half) (code : Byte) (speed : Speed) (s : State) : Host.Outcome State Fault Refusal :=
  checked (.configure sel code speed) (configureRule sel code speed) s

/-- The pseudocode of R105. -/
def setSpeedRule (hz : Speed) (s : State) : State := { s with transactionSpeed := clampSpeed s.params hz }

/-- SET_SPEED (R105). -/
def execSetSpeed (hz : Speed) (s : State) : Host.Outcome State Fault Refusal :=
  checked (.setSpeed hz) (setSpeedRule hz) s

/-- The pseudocode of R106 up to the first frame: the optional bus initialisation, the select line, the delay. -/
def beginPrelude (skip : Bool) (s : State) : State :=
  let s1 := if skip then s else emit (.busInit s.params.busConfig) s
  let s2 := { emit (.selInit s1.selectLine) s1 with csLevel := true }
  emit (.delay s2.params.startupDelay) s2

/-- The pseudocode of R106: the prelude, the control write, the shadow reset, the direction write. -/
def beginRule (skip : Bool) (s : State) : State :=
  let s1 := beginPrelude skip s
  let s2 := memWrite8 (registerAddress .ctrl) (controlByte s1.params s1.addressingEnabled) s1
  let s3 := { s2 with shadowDirection := 0xFFFF, shadowOutput := 0x0000 }
  let s4 := memWrite16 (registerAddress .dir) s3.shadowDirection s3
  { s4 with begun := true }

/-- BEGIN (R106). -/
def execBeginInit (skip : Bool) (s : State) : Host.Outcome State Fault Refusal :=
  checked (.beginInit skip) (beginRule skip) s

end Sys2Proof.Machine
end

