-- ==== Sys2Proof/Machine/PinPort.lean ====
section
/-! DEFINITION. The pin and port commands (42_pin_port.md). -/

namespace Sys2Proof.Machine

/-- `shadowDirection <- v`, then the write of DIR (R150, R151). -/
def writeDirection (v : Half) (s : State) : State :=
  memWrite16 (registerAddress .dir) v { s with shadowDirection := v }

/-- `shadowOutput <- v`, then the write of `PORT_WRITE_REG` (R152, R153). -/
def writeOutput (v : Half) (s : State) : State :=
  memWrite16 (portWriteAddress s.params) v { s with shadowOutput := v }

/-- The pseudocode of R150. -/
def portModeRule (value : Half) (s : State) : State := writeDirection (decodeDir s.params value) s

/-- PORT_MODE (R150). -/
def execPortMode (value : Half) (s : State) : Host.Outcome State Fault Refusal :=
  checked (.portMode value) (portModeRule value) s

/-- The pseudocode of R151. -/
def pinModeRule (pin : Byte) (input : Bool) (s : State) : State :=
  if legalPin pin then writeDirection (setBit s.shadowDirection pin.toNat input) s else s

/-- PIN_MODE (R151). -/
def execPinMode (pin : Byte) (input : Bool) (s : State) : Host.Outcome State Fault Refusal :=
  checked (.pinMode pin input) (pinModeRule pin input) s

/-- The pseudocode of R152. -/
def portWriteRule (value : Half) (s : State) : State := writeOutput (decodeLevel s.params value) s

/-- PORT_WRITE (R152). -/
def execPortWrite (value : Half) (s : State) : Host.Outcome State Fault Refusal :=
  checked (.portWrite value) (portWriteRule value) s

/-- The pseudocode of R153. -/
def pinWriteRule (pin : Byte) (level : Bool) (s : State) : State :=
  if legalPin pin then writeOutput (setBit s.shadowOutput pin.toNat level) s else s

/-- PIN_WRITE (R153). -/
def execPinWrite (pin : Byte) (level : Bool) (s : State) : Host.Outcome State Fault Refusal :=
  checked (.pinWrite pin level) (pinWriteRule pin level) s

/-- The pseudocode of R154: the shadow only, no event. -/
def pinWriteFastRule (pin : Byte) (level : Bool) (s : State) : State :=
  if legalPin pin then { s with shadowOutput := setBit s.shadowOutput pin.toNat level } else s

/-- PIN_WRITE_FAST (R154). -/
def execPinWriteFast (pin : Byte) (level : Bool) (s : State) : Host.Outcome State Fault Refusal :=
  checked (.pinWriteFast pin level) (pinWriteFastRule pin level) s

/-- The pseudocode of R155. -/
def portUpdateRule (s : State) : State := memWrite16 (portWriteAddress s.params) s.shadowOutput s

/-- PORT_UPDATE (R155). -/
def execPortUpdate (s : State) : Host.Outcome State Fault Refusal :=
  checked .portUpdate portUpdateRule s

/-- The pseudocode of R156. -/
def portReadRule (s : State) : State :=
  writeResult (memRead16 (registerAddress .gpio) s).1 (memRead16 (registerAddress .gpio) s).2

/-- PORT_READ (R156). -/
def execPortRead (s : State) : Host.Outcome State Fault Refusal :=
  checked .portRead portReadRule s

/-- `RESULT <- draw()`, with no transaction: a pin read of a pin out of range (R157, R158, R170; log 5). -/
def drawResult (s : State) : State := writeResult (draw s).1 (draw s).2

/-- The pseudocode of R157. -/
def pinReadRule (pin : Byte) (s : State) : State :=
  if legalPin pin then
    let (v, s1) := memRead16 (registerAddress .gpio) s
    writeResult (getBit v pin.toNat) s1
  else drawResult s

/-- PIN_READ (R157). -/
def execPinRead (pin : Byte) (s : State) : Host.Outcome State Fault Refusal :=
  checked (.pinRead pin) (pinReadRule pin) s

/-- The pseudocode of R158. -/
def pinReadFastRule (pin : Byte) (s : State) : State :=
  if legalPin pin then writeResult (getBit s.shadowOutput pin.toNat) s else drawResult s

/-- PIN_READ_FAST (R158). -/
def execPinReadFast (pin : Byte) (s : State) : Host.Outcome State Fault Refusal :=
  checked (.pinReadFast pin) (pinReadFastRule pin) s

/-- The pseudocode of R159. -/
def portPullupRule (value : Half) (s : State) : State :=
  memWrite16 (registerAddress .pullup) (decodeLevel s.params value) s

/-- PORT_PULLUP (R159): no shadow. -/
def execPortPullup (value : Half) (s : State) : Host.Outcome State Fault Refusal :=
  checked (.portPullup value) (portPullupRule value) s

end Sys2Proof.Machine
end

