-- ==== Sys2Proof/Machine/RegisterAccess.lean ====
section
/-! DEFINITION. The register-level commands (41_register_access.md). Any address is sent unchanged (20_memory.md R54, R55) and
no shadow changes (42_pin_port.md R163). -/

namespace Sys2Proof.Machine

/-- The pseudocode of R123. -/
def regRead8Rule (reg : Byte) (s : State) : State := writeResult (memRead8 reg s).1 (memRead8 reg s).2

/-- REG_READ8 (R123). -/
def execRegRead8 (reg : Byte) (s : State) : Host.Outcome State Fault Refusal :=
  checked (.regRead8 reg) (regRead8Rule reg) s

/-- The pseudocode of R124. -/
def regRead16Rule (reg : Byte) (s : State) : State := writeResult (memRead16 reg s).1 (memRead16 reg s).2

/-- REG_READ16 (R124). -/
def execRegRead16 (reg : Byte) (s : State) : Host.Outcome State Fault Refusal :=
  checked (.regRead16 reg) (regRead16Rule reg) s

/-- The pseudocode of R125. -/
def regWrite8Rule (reg data : Byte) (s : State) : State := memWrite8 reg data s

/-- REG_WRITE8 (R125). -/
def execRegWrite8 (reg data : Byte) (s : State) : Host.Outcome State Fault Refusal :=
  checked (.regWrite8 reg data) (regWrite8Rule reg data) s

/-- The pseudocode of R126. -/
def regWrite8BothRule (reg data : Byte) (s : State) : State := memWritePair reg data s

/-- REG_WRITE8_BOTH (R126). -/
def execRegWrite8Both (reg data : Byte) (s : State) : Host.Outcome State Fault Refusal :=
  checked (.regWrite8Both reg data) (regWrite8BothRule reg data) s

/-- The pseudocode of R127. -/
def regWrite16Rule (reg : Byte) (value : Half) (s : State) : State := memWrite16 reg value s

/-- REG_WRITE16 (R127): no sentinel decoding. -/
def execRegWrite16 (reg : Byte) (value : Half) (s : State) : Host.Outcome State Fault Refusal :=
  checked (.regWrite16 reg value) (regWrite16Rule reg value) s

end Sys2Proof.Machine
end

