-- ==== Sys2Proof/Machine/Dispatch.lean ====
section
/-! DEFINITION. Every command to its meaning. -/

namespace Sys2Proof.Machine

-- The lifecycle check and the rule of a decoded command (60_exceptions.md R183).
def exec (i : Instr) (s : State) : Host.Outcome State Fault Refusal :=
  match i with
  | .configure sel code speed => Sys2Proof.Machine.execConfigure sel code speed s
  | .setSpeed hz => Sys2Proof.Machine.execSetSpeed hz s
  | .beginInit skip => Sys2Proof.Machine.execBeginInit skip s
  | .regRead8 reg => Sys2Proof.Machine.execRegRead8 reg s
  | .regRead16 reg => Sys2Proof.Machine.execRegRead16 reg s
  | .regWrite8 reg data => Sys2Proof.Machine.execRegWrite8 reg data s
  | .regWrite8Both reg data => Sys2Proof.Machine.execRegWrite8Both reg data s
  | .regWrite16 reg value => Sys2Proof.Machine.execRegWrite16 reg value s
  | .portMode value => Sys2Proof.Machine.execPortMode value s
  | .pinMode pin input => Sys2Proof.Machine.execPinMode pin input s
  | .portWrite value => Sys2Proof.Machine.execPortWrite value s
  | .pinWrite pin level => Sys2Proof.Machine.execPinWrite pin level s
  | .pinWriteFast pin level => Sys2Proof.Machine.execPinWriteFast pin level s
  | .portUpdate => Sys2Proof.Machine.execPortUpdate s
  | .portRead => Sys2Proof.Machine.execPortRead s
  | .pinRead pin => Sys2Proof.Machine.execPinRead pin s
  | .pinReadFast pin => Sys2Proof.Machine.execPinReadFast pin s
  | .portPullup value => Sys2Proof.Machine.execPortPullup value s

end Sys2Proof.Machine
end

