-- ==== Sys2Proof/Machine/Control.lean ====
section
/-! DEFINITION. What one step does: the host's next move (30_encoding.md R72; 70_reset_and_hazards.md R213) and the order of
checks on a command word (60_exceptions.md R183). -/

namespace Sys2Proof.Machine

/-- The fault kind of a word that spells no command (60_exceptions.md R182). -/
def decodeFaultKind : DecodeError → FaultKind
  | .illegalCommand => .illegalCommand
  | .reservedField => .reservedField

/-- `Step(w)` (60_exceptions.md R183): a block with the fault mark set takes no command. -/
def runWord (w : CommandWord) (s : State) : Host.Outcome State Fault Refusal :=
  match s.fault with
  | some mark => .fault (.stopped mark)
  | none =>
    match decode w with
    | .error e => raiseFault (decodeFaultKind e) w s
    | .ok i => exec i s

/-- The host's next move: with none the block waits (70_reset_and_hazards.md R202; log 1). -/
def takeMove (s : State) : Host.Outcome State Fault Refusal :=
  match s.hostMoves with
  | [] => .next s
  | .command w :: rest => runWord w { s with hostMoves := rest }
  | .reset :: rest => .next (resetBlock { s with hostMoves := rest })

/-- The host presents `w` before anything else it would do (30_encoding.md R72). -/
def presentWord (w : CommandWord) (s : State) : State :=
  { s with hostMoves := .command w :: s.hostMoves }

end Sys2Proof.Machine
end

