-- ==== Sys2Proof/Machine/Step.lean ====
section
/-! DEFINITION. One step of the block, and how a word comes to be the next one it takes. -/

namespace Sys2Proof.Machine

/-- One step: the host's next move, run to completion (20_memory.md R62). -/
def step (s : State) : Host.Outcome State Fault Refusal := takeMove s

/-- `s` with the host about to present the word whose low `nbits` bits are `w` (log 1). -/
def State.withFetchWord (s : State) (nbits w : Nat) : State :=
  presentWord (BitVec.ofNat 64 (w % 2 ^ nbits)) s

end Sys2Proof.Machine
end

