-- ==== Sys2Proof/Machine/Assembler.lean ====
section
/-! DEFINITION. The assembler lines of 30_encoding.md R78, as data: a mnemonic and its operands in the order R78 gives them.
The block reads words; this file only says which word a line stands for. -/

namespace Sys2Proof.Machine

/-- The mnemonics of R78: the eighteen commands and the seven pseudo-instructions. -/
inductive Mnemonic where
  | command (c : Command)
  | pinInput | pinOutput | pinHigh | pinLow | portAllHigh | portAllLow | flush
  deriving DecidableEq, Repr

/-- An operand of a line: a number, a register mnemonic of 10_state.md R30, or a direction. -/
inductive AsmOperand where
  | number (n : Nat)
  | register (r : RegName)
  | dirIn
  | dirOut
  deriving DecidableEq, Repr

/-- The number an operand stands for: `IN` is 1 and `OUT` is 0. -/
def operandValue : AsmOperand → Nat
  | .number n => n
  | .register r => (registerAddress r).toNat
  | .dirIn => 1
  | .dirOut => 0

/-- The word with the three fields given, if each number fits its field. -/
def placeFields (c : Command) (a d s : Nat) : Option CommandWord :=
  if a < 2 ^ 8 ∧ d < 2 ^ 16 ∧ s < 2 ^ 32 then
    some (pack c.assignedCode (BitVec.ofNat 8 a) (BitVec.ofNat 16 d) (BitVec.ofNat 32 s))
  else none

/-- The word of a command line, its operands in the order of R78. -/
def assembleCommand (c : Command) (ops : List Nat) : Option CommandWord :=
  match c with
  | .configure => match ops with | [sel, code, speed] => placeFields c code sel speed | _ => none
  | .setSpeed => match ops with | [hz] => placeFields c 0 0 hz | _ => none
  | .beginInit | .regRead8 | .regRead16 | .pinRead | .pinReadFast =>
    match ops with | [a] => placeFields c a 0 0 | _ => none
  | .regWrite8 | .regWrite8Both | .regWrite16 | .pinMode | .pinWrite | .pinWriteFast =>
    match ops with | [a, d] => placeFields c a d 0 | _ => none
  | .portMode | .portWrite | .portPullup => match ops with | [d] => placeFields c 0 d 0 | _ => none
  | .portUpdate | .portRead => match ops with | [] => placeFields c 0 0 0 | _ => none

/-- The word of a line, the pseudo-instructions expanded as R78 lists them. -/
def assemble (p : Config.Params) (m : Mnemonic) (ops : List AsmOperand) : Option CommandWord :=
  let ns := ops.map operandValue
  match m with
  | .command c => assembleCommand c ns
  | .pinInput => match ns with | [pin] => assembleCommand .pinMode [pin, 1] | _ => none
  | .pinOutput => match ns with | [pin] => assembleCommand .pinMode [pin, 0] | _ => none
  | .pinHigh => match ns with | [pin] => assembleCommand .pinWrite [pin, 1] | _ => none
  | .pinLow => match ns with | [pin] => assembleCommand .pinWrite [pin, 0] | _ => none
  | .portAllHigh => match ns with | [] => assembleCommand .portWrite [p.sentHigh.toNat] | _ => none
  | .portAllLow => match ns with | [] => assembleCommand .portWrite [p.sentLow.toNat] | _ => none
  | .flush => match ns with | [] => assembleCommand .portUpdate [] | _ => none

/-- The spelling of a command (R74). -/
def commandName : Command → String
  | .configure => "CONFIGURE"
  | .setSpeed => "SET_SPEED"
  | .beginInit => "BEGIN"
  | .regRead8 => "REG_READ8"
  | .regRead16 => "REG_READ16"
  | .regWrite8 => "REG_WRITE8"
  | .regWrite8Both => "REG_WRITE8_BOTH"
  | .regWrite16 => "REG_WRITE16"
  | .portMode => "PORT_MODE"
  | .pinMode => "PIN_MODE"
  | .portWrite => "PORT_WRITE"
  | .pinWrite => "PIN_WRITE"
  | .pinWriteFast => "PIN_WRITE_FAST"
  | .portUpdate => "PORT_UPDATE"
  | .portRead => "PORT_READ"
  | .pinRead => "PIN_READ"
  | .pinReadFast => "PIN_READ_FAST"
  | .portPullup => "PORT_PULLUP"

/-- The line an assembler should warn on (R78): a PORT_WRITE whose number is the high sentinel. -/
def assemblerWarns (p : Config.Params) (m : Mnemonic) (ops : List AsmOperand) : Bool :=
  m == .command .portWrite && ops.map operandValue == [p.sentHigh.toNat]

end Sys2Proof.Machine
end

