-- ==== Sys2Proof/Safety.lean ====
section
/-! DEFINITION. What claims about the block are stated in: one frame as the wire shows it, the good runs, and the invariants
the spec's prose gives the machine. -/

namespace Sys2Proof.Machine

/-- The `k` bytes the oracle gives next, in order: the scripted ones, then free values (10_state.md R41). -/
def rxBytes : List Byte → Nat → Nat → List Byte
  | _, _, 0 => []
  | [], n, k + 1 => Config.freeByte n :: rxBytes [] (n + 1) k
  | b :: rest, n, k + 1 => b :: rxBytes rest n k

/-- The bytes received while `sent` is sent from `s`. -/
def received (s : State) (sent : List Byte) : List Byte := rxBytes s.oracle s.drawCount sent.length

/-- The events of one frame that sends `sent` from `s` (30_encoding.md R80; 20_memory.md R61). -/
def frameEvents (s : State) (sent : List Byte) : List Event :=
  (if s.transactionSpeed = 0 then [] else [.reserve s.transactionSpeed])
    ++ [.sel s.selectLine false]
    ++ List.zipWith .xfer sent (received s sent)
    ++ [.sel s.selectLine true]
    ++ (if s.transactionSpeed = 0 then [] else [.release])

/-- The state after one frame that sends `sent` from `s`: its events, select high, no reservation of its own left, and
`sent.length` bytes taken from the oracle. Every other field is as in `s`. -/
def afterFrame (s : State) (sent : List Byte) : State :=
  { s with
    history := s.history ++ frameEvents s sent
    csLevel := true
    reservationHeld := s.reservationHeld && s.transactionSpeed == 0
    oracle := s.oracle.drop sent.length
    drawCount := s.drawCount + (sent.length - s.oracle.length) }

/-- The bytes a frame that sends `sent` captures: all but those received with the opcode and the address (30_encoding.md
R80). -/
def captured (s : State) (sent : List Byte) : List Byte := (received s sent).drop 2

/-- `s` with the fault mark set (60_exceptions.md R181). -/
def marked (s : State) (kind : FaultKind) (w : CommandWord) : State := { s with fault := some ⟨kind, w⟩ }

/-- The clean-entry state a claim starts from (70_reset_and_hazards.md R203). -/
def cleanEntry (s : State) : Prop :=
  s.fault = none ∧ s.configured = false ∧ s.begun = false ∧ s.reservationHeld = false ∧ s.history = []

/-- `s` with the host about to issue the words `ws` and nothing else (10_state.md R21). -/
def withProgram (s : State) (ws : List CommandWord) : State := { s with hostMoves := ws.map .command }

/-- A good run of `ws` from `s` (70_reset_and_hazards.md R214): every word is run and no fault is raised. -/
def goodRun (s : State) (ws : List CommandWord) (t : State) : Prop :=
  core.run ws.length (withProgram s ws) = .next t ∧ t.fault = none

/-- The opcode invariant (10_state.md R28), with what R25 and R79 say of the two modes. -/
def opcodesAgree (s : State) : Prop :=
  s.readOpcode = s.writeOpcode ||| 0x01
    ∧ s.writeOpcode.getLsbD 0 = false
    ∧ s.writeOpcode.extractLsb' 1 3 = s.hardwareAddress
    ∧ s.writeOpcode.extractLsb' 4 4 = (if s.addressingEnabled then 4 else 0)
    ∧ (s.addressingEnabled = false → s.hardwareAddress = 0)

/-- The legal speeds (10_state.md R29). -/
def speedLegal (s : State) : Prop := s.transactionSpeed ≤ s.params.maxSpeedHz

/-- The bus is at rest between commands (10_state.md R37, R38): no reservation held and, from BEGIN on, select high. -/
def busAtRest (s : State) : Prop := s.reservationHeld = false ∧ (s.begun = true → s.csLevel = true)

/-- The lifecycle (60_exceptions.md R184; 70_reset_and_hazards.md R204): BEGIN follows CONFIGURE, and no event comes before
BEGIN. -/
def lifecycleOrdered (s : State) : Prop :=
  (s.begun = true → s.configured = true) ∧ (s.begun = false → s.history = [])

/-- Where a history stands in the framing protocol (41_register_access.md R120). -/
inductive BusPhase where
  /-- Between frames. -/
  | idle
  /-- A reservation taken, select still high. -/
  | reserved
  /-- Select low, with or without a reservation, `sent` bytes sent so far. -/
  | selected (reservation : Bool) (sent : Nat)
  /-- Select high again, the reservation still to be released. -/
  | releasing
  deriving DecidableEq, Repr

/-- What a history's frames must carry: the select line and the two opcodes. -/
structure FrameRules where
  line : Half
  readOpcode : Byte
  writeOpcode : Byte
  deriving DecidableEq, Repr

/-- The rules of the frames of `s`. -/
def frameRules (s : State) : FrameRules := ⟨s.selectLine, s.readOpcode, s.writeOpcode⟩

/-- Between frames: the events of BEGIN's prelude, the start of a reservation, or select low on the one line. -/
def afterIdle (r : FrameRules) : Event → Option BusPhase
  | .busInit _ => some .idle
  | .selInit line => if line = r.line then some .idle else none
  | .delay _ => some .idle
  | .reserve speed => if speed = 0 then none else some .reserved
  | .sel line level => if line = r.line ∧ level = false then some (.selected false 0) else none
  | .xfer _ _ => none
  | .release => none

/-- After a reservation: select low, nothing else. -/
def afterReserve (r : FrameRules) : Event → Option BusPhase
  | .sel line level => if line = r.line ∧ level = false then some (.selected true 0) else none
  | .busInit _ => none
  | .selInit _ => none
  | .delay _ => none
  | .reserve _ => none
  | .xfer _ _ => none
  | .release => none

/-- Inside a frame with `sent` bytes sent: the next byte, the first of a frame an opcode, or select high once three or four
bytes are sent. -/
def afterSelect (r : FrameRules) (reservation : Bool) (sent : Nat) : Event → Option BusPhase
  | .xfer tx _ =>
    if sent = 0 ∧ tx ≠ r.readOpcode ∧ tx ≠ r.writeOpcode then none else some (.selected reservation (sent + 1))
  | .sel line level =>
    if line = r.line ∧ level = true ∧ (sent = 3 ∨ sent = 4) then some (if reservation then .releasing else .idle)
    else none
  | .busInit _ => none
  | .selInit _ => none
  | .delay _ => none
  | .reserve _ => none
  | .release => none

/-- After a frame inside a reservation: its release, nothing else. -/
def afterFrameReserved : Event → Option BusPhase
  | .release => some .idle
  | .busInit _ => none
  | .selInit _ => none
  | .delay _ => none
  | .reserve _ => none
  | .sel _ _ => none
  | .xfer _ _ => none

/-- The phase after an event, where the protocol allows the event: a frame is select low, an opcode byte, an address byte,
one or two more bytes, select high, on one line, with a reservation released right after it if one was taken right before
it; the events of BEGIN's prelude stand between frames. -/
def BusPhase.after (r : FrameRules) (p : BusPhase) (e : Event) : Option BusPhase :=
  match p with
  | .idle => afterIdle r e
  | .reserved => afterReserve r e
  | .selected reservation sent => afterSelect r reservation sent e
  | .releasing => afterFrameReserved e

/-- The phase a history ends in, if the protocol allows every event of it. -/
def phaseAfter (r : FrameRules) : BusPhase → List Event → Option BusPhase
  | p, [] => some p
  | p, e :: rest =>
    match p.after r e with
    | none => none
    | some q => phaseAfter r q rest

/-- Every event of the history is allowed where it stands, and the history ends between frames. -/
def wellFramed (s : State) : Prop := phaseAfter (frameRules s) .idle s.history = some .idle

/-- What the spec says of the block between any two commands. -/
def Inv (s : State) : Prop :=
  opcodesAgree s ∧ speedLegal s ∧ busAtRest s ∧ lifecycleOrdered s ∧ wellFramed s

/-- An event without the byte received: what the block itself sends. -/
def Event.sent : Event → Event
  | .xfer tx _ => .xfer tx 0
  | .busInit config => .busInit config
  | .selInit line => .selInit line
  | .delay length => .delay length
  | .reserve speed => .reserve speed
  | .sel line level => .sel line level
  | .release => .release

/-- The same state with other answers to come from the oracle. -/
def withOracle (s : State) (oracle : List Byte) (drawCount : Nat) : State :=
  { s with oracle := oracle, drawCount := drawCount }

/-- What the block has sent and holds, RESULT and received bytes apart: what no answer of the peripheral can change. -/
def blindView (s : State) : State :=
  { s with history := s.history.map Event.sent, result := 0, oracle := [], drawCount := 0 }

end Sys2Proof.Machine
end

