-- ==== Sys2Proof/Certificates/Slice0/Obligations.lean ====
section
/-! DEFINITION. The statements for the provers. Each says a numbered rule of spec/ or what several rules give together. Many
rules carry a mark "[decision: …]": they are numbered rules of the spec whose reasons stand in 92_eei_decisions.md (log 15).
A statement over every state holds for every value of the parameters of 00_scope.md R7, which State carries (log 6). -/

namespace Sys2Proof.Claims

open Sys2Proof.Machine

/-- A code and its must-be-0 fields (30_encoding.md R74): a word of that code decodes to `i` of the word where the fields
are 0, and is a reserved-field error where they are not. -/
def CodeSpells (code : Byte) (reservedZero : CommandWord → Prop) (i : CommandWord → Instr) : Prop :=
  ∀ w, cmdField w = code →
    (reservedZero w → decode w = .ok (i w)) ∧ (¬ reservedZero w → decode w = .error .reservedField)

/-- The events of one frame that sends `sent` and receives `rx` from `s`: bracketed by a reservation at the speed of `s`
exactly when that speed is not 0 (41_register_access.md R120; 30_encoding.md R80). -/
def frame (s : State) (sent rx : List Byte) : List Event :=
  (if s.transactionSpeed = 0 then [] else [.reserve s.transactionSpeed])
    ++ [.sel s.selectLine false] ++ List.zipWith .xfer sent rx ++ [.sel s.selectLine true]
    ++ (if s.transactionSpeed = 0 then [] else [.release])

/-- The state after that frame: its events at the end of the history, select high, the reservation it took released, the
oracle left at `oracle` and `drawCount`, every other field as in `s`. -/
def framed (s : State) (sent rx oracle : List Byte) (drawCount : Nat) : State :=
  { s with
    history := s.history ++ frame s sent rx
    csLevel := true
    reservationHeld := if s.transactionSpeed = 0 then s.reservationHeld else false
    oracle := oracle
    drawCount := drawCount }

/-- `exec i s` answers the state after one frame that sends `sent`, changed by `also`, for some received bytes, one for
each byte sent (10_state.md R41: whatever bytes the oracle gives). -/
def OneFrame (i : Instr) (s start : State) (sent : List Byte) (also : List Byte → State → State) : Prop :=
  ∃ rx oracle drawCount, rx.length = sent.length ∧ exec i s = .next (also rx (framed start sent rx oracle drawCount))

/-- The address of `PORT_WRITE_REG` (00_scope.md R7). -/
def portAddress (s : State) : Byte := if s.params.portWriteReg = .gpio then 0x12 else 0x14

/-- The frames a command makes where no fault applies: BEGIN two, a command that touches only fields none, any other one
(20_memory.md R56, R58). -/
def transactionsOf : Instr → Nat
  | .configure _ _ _ => 0
  | .setSpeed _ => 0
  | .beginInit _ => 2
  | .regRead8 _ => 1
  | .regRead16 _ => 1
  | .regWrite8 _ _ => 1
  | .regWrite8Both _ _ => 1
  | .regWrite16 _ _ => 1
  | .portMode _ => 1
  | .pinMode pin _ => if pin.toNat ≤ 15 then 1 else 0
  | .portWrite _ => 1
  | .pinWrite pin _ => if pin.toNat ≤ 15 then 1 else 0
  | .pinWriteFast _ _ => 0
  | .portUpdate => 1
  | .portRead => 1
  | .pinRead pin => if pin.toNat ≤ 15 then 1 else 0
  | .pinReadFast _ => 0
  | .portPullup _ => 1

/-- The codes R75 of 30_encoding.md lists as unassigned. -/
def Unassigned (code : Byte) : Prop :=
  code.toNat = 0x00 ∨ (0x04 ≤ code.toNat ∧ code.toNat ≤ 0x0F) ∨ (0x15 ≤ code.toNat ∧ code.toNat ≤ 0x1F)
    ∨ 0x2A ≤ code.toNat

end Sys2Proof.Claims

open Sys2Proof Sys2Proof.Machine Sys2Proof.Claims

/-! ### Encoding and one step -/

/-- Words of 95_test_vectors.md section 2, one of each row, decode to the commands they stand for. -/
def Obligations.VectorWordsDecode : Prop :=
  (decode 0x0000000000052101 = .ok (.configure 5 0x21 0) ∧ decode 0x01312D0000000002 = .ok (.setSpeed 20000000)
    ∧ decode 0x0000000000000103 = .ok (.beginInit true) ∧ decode 0x0000000000000A10 = .ok (.regRead8 0x0A)
    ∧ decode 0x0000000000000E11 = .ok (.regRead16 0x0E) ∧ decode 0x0000000000080A12 = .ok (.regWrite8 0x0A 0x08))
  ∧ (decode 0x0000000000AA0C13 = .ok (.regWrite8Both 0x0C 0xAA) ∧ decode 0x0000000000FF0214 = .ok (.regWrite16 0x02 0x00FF)
    ∧ decode 0x0000000000F00020 = .ok (.portMode 0x00F0) ∧ decode 0x0000000000010321 = .ok (.pinMode 3 true)
    ∧ decode 0x00000000FFFE0022 = .ok (.portWrite 0xFFFE) ∧ decode 0x0000000000010323 = .ok (.pinWrite 3 true))
  ∧ (decode 0x000000000001FF24 = .ok (.pinWriteFast 255 true) ∧ decode 0x0000000000000025 = .ok .portUpdate
    ∧ decode 0x0000000000000026 = .ok .portRead ∧ decode 0x0000000000000F27 = .ok (.pinRead 15)
    ∧ decode 0x000000000000C828 = .ok (.pinReadFast 200) ∧ decode 0x0000000000F00029 = .ok (.portPullup 0x00F0))

/-- Decoding the word of a command gives the command back, for every command and every operand value (30_encoding.md R71,
R73, R74). -/
def Obligations.DecodeOfEncode : Prop := ∀ i : Instr, decode (encode i) = .ok i

/-- A word that decodes to a command is that command's word: no accepted word has a bit the command does not carry
(30_encoding.md R71, R73, R76). -/
def Obligations.EncodeOfDecode : Prop := ∀ (w : CommandWord) (i : Instr), decode w = .ok i → encode i = w

/-- R76: a word is accepted as command c exactly when `w & mask(c) == match(c)`, with mask and match of opcode_table.json;
a word of an assigned code whose must-be-0 fields (R74) are not all 0 raises ReservedField where the block takes it. -/
def Obligations.AcceptedExactlyByMaskAndMatch : Prop :=
  (∀ row ∈ opcodeTable, ∀ w, (∃ i, decode w = .ok i ∧ i.command = row.command) ↔ w &&& row.mask = row.pattern)
  ∧ (∀ (c : Command) (w : CommandWord) (s : State), s.fault = none →
      cmdField w = c.assignedCode → (rawCommand w).mustBeZero c = false →
      runWord w s = .next (marked s .reservedField w))

/-- R75, R182: a word of an unassigned code raises IllegalCommand, and a word of an assigned code whose must-be-0 fields are
not all 0 raises ReservedField, where the block takes it; a word of neither kind decodes. -/
def Obligations.DecodeFaults : Prop :=
  ∀ (w : CommandWord) (s : State), s.fault = none →
    (Unassigned (cmdField w) → runWord w s = .next (marked s .illegalCommand w))
    ∧ (∀ c : Command, cmdField w = c.assignedCode → (rawCommand w).mustBeZero c = false →
        runWord w s = .next (marked s .reservedField w))
    ∧ (¬ Unassigned (cmdField w) → (∀ c : Command, cmdField w = c.assignedCode → (rawCommand w).mustBeZero c = true) →
        ∃ i, decode w = .ok i)

/-- A step runs the decoded command: with no fault mark, a word at the head of the host's moves that decodes to `i` is taken
off them and `i` is run; any word there is taken off them and put through the checks of 60_exceptions.md R183. That the words
stand in the state is the model's form (log 1). -/
def Obligations.StepRunsDecodedCommand : Prop :=
  (∀ (s : State) (w : CommandWord) (i : Instr) (rest : List HostMove), s.fault = none →
    s.hostMoves = .command w :: rest → decode w = .ok i → step s = exec i { s with hostMoves := rest })
  ∧ (∀ (s : State) (w : CommandWord) (rest : List HostMove),
    s.hostMoves = .command w :: rest → step s = runWord w { s with hostMoves := rest })

/-- While the fault mark is set the block takes no command (60_exceptions.md R183): the step stops by name, for every word.
The stop is the model's form of "no step" (log 2). -/
def Obligations.MarkedBlockTakesNoCommand : Prop :=
  ∀ (s : State) (mark : FaultMark) (w : CommandWord) (rest : List HostMove), s.fault = some mark →
    s.hostMoves = .command w :: rest → step s = .fault (.stopped mark)

/-- With nothing issued the block waits (70_reset_and_hazards.md R202). That a wait is a step that changes nothing is the
model's choice (log 1). -/
def Obligations.BlockWaitsForHost : Prop := ∀ s : State, s.hostMoves = [] → step s = .next s

/-- The fault mark, once set, stays until a reset (10_state.md R39). The host's moves are the model's form (log 1). -/
def Obligations.FaultMarkIsSticky : Prop :=
  ∀ (s t : State) (mark : FaultMark), s.fault = some mark → step s = .next t →
    t.fault = some mark ∨ (∃ rest, s.hostMoves = .reset :: rest ∧ t.fault = none)

/-- A step that raises a fault changes nothing but the mark and the host's moves, and the mark records the command word
(60_exceptions.md R181, R189; log 2, log 3). -/
def Obligations.FaultHasNoPartialEffect : Prop :=
  ∀ s t : State, s.fault = none → step s = .next t → t.fault ≠ none →
    ∃ kind w rest, s.hostMoves = .command w :: rest ∧ t = marked { s with hostMoves := rest } kind w

/-- R184: the lifecycle faults, each on exactly its condition, for every command; the mark records the command's word `w`,
whichever word decodes to the command (that exec records `encode` of it is log 3); where none applies the command runs and
sets no mark. -/
def Obligations.LifecycleFaults : Prop :=
  ∀ (i : Instr) (s : State),
    (∀ w : CommandWord, decode w = .ok i →
      (i.command = .configure → s.begun = true → exec i s = .next (marked s .configAfterBegin w))
      ∧ (i.command = .beginInit → s.configured = false → exec i s = .next (marked s .notConfigured w))
      ∧ (i.command = .beginInit → s.configured = true → s.begun = true → exec i s = .next (marked s .doubleBegin w))
      ∧ (i.command ≠ .configure → i.command ≠ .setSpeed → i.command ≠ .beginInit → s.begun = false →
          exec i s = .next (marked s .notBegun w)))
    ∧ (i.command = .setSpeed ∨ (i.command = .configure ∧ s.begun = false)
        ∨ (i.command = .beginInit ∧ s.configured = true ∧ s.begun = false)
        ∨ (i.command ≠ .configure ∧ i.command ≠ .beginInit ∧ s.begun = true) →
        ∃ t, exec i s = .next t ∧ t.fault = s.fault)

/-! ### Reset -/

/-- R203 and the values R200 lists, for every value of the parameters: the state after reset is a clean-entry state with
addressing off, opcodes 0x01 and 0x00 and speed 0. The fields R200 leaves unspecified are not stated; `State.reset` is this
state for the spec's default parameters (log 6). -/
def Obligations.ResetIsCleanEntry : Prop :=
  ∀ p : Config.Params,
    (State.resetWith p).fault = none ∧ (State.resetWith p).configured = false ∧ (State.resetWith p).begun = false
    ∧ (State.resetWith p).reservationHeld = false ∧ (State.resetWith p).history = []
    ∧ (State.resetWith p).addressingEnabled = false ∧ (State.resetWith p).hardwareAddress = 0
    ∧ (State.resetWith p).readOpcode = 0x01 ∧ (State.resetWith p).writeOpcode = 0x00
    ∧ (State.resetWith p).transactionSpeed = 0

/-- R200, R201: a reset by the host, from any state, faulted ones too, gives every field R200 names its value, clears the
fault mark and leaves no event. That it is a move of the host and empties the history is log 11. -/
def Obligations.HostResetRestores : Prop :=
  ∀ (s : State) (rest : List HostMove), s.hostMoves = .reset :: rest →
    ∃ t, step s = .next t ∧ cleanEntry t ∧ t.addressingEnabled = false ∧ t.hardwareAddress = 0 ∧ t.readOpcode = 0x01
      ∧ t.writeOpcode = 0x00 ∧ t.transactionSpeed = 0 ∧ t.params = s.params ∧ t.hostMoves = rest

/-! ### Configuration and initialisation -/

/-- R100, R101, R102, R104: CONFIGURE, its word, its fault after BEGIN, and every field it writes. -/
def Obligations.ConfigureSetsConfiguration : Prop :=
  CodeSpells 0x01 (fun _ => True) (fun w => .configure (dField w) (aField w) (sField w))
  ∧ ∀ (sel : Half) (code : Byte) (speed : Speed) (s : State),
    (s.begun = true → exec (.configure sel code speed) s = .next (marked s .configAfterBegin (pack 0x01 code sel speed)))
    ∧ (s.begun = false → exec (.configure sel code speed) s =
        .next { s with
          addressingEnabled := decide (0x20 ≤ code.toNat ∧ code.toNat ≤ 0x27)
          hardwareAddress := if 0x20 ≤ code.toNat ∧ code.toNat ≤ 0x27 then code.extractLsb' 0 3 else 0
          readOpcode := if 0x20 ≤ code.toNat ∧ code.toNat ≤ 0x27 then code <<< 1 ||| 0x01 else 0x01
          writeOpcode := if 0x20 ≤ code.toNat ∧ code.toNat ≤ 0x27 then code <<< 1 else 0x00
          selectLine := sel
          transactionSpeed := BitVec.ofNat 32 (min speed.toNat s.params.maxSpeedHz.toNat)
          configured := true })

/-- R79: the opcode bytes after CONFIGURE, bit by bit: 0b0100, the hardware address, and 1 for a read or 0 for a write with
addressing enabled; 0x01 and 0x00 with it disabled. -/
def Obligations.OpcodeBytesLayout : Prop :=
  ∀ (sel : Half) (code : Byte) (speed : Speed) (s : State), s.begun = false →
    ∃ t, exec (.configure sel code speed) s = .next t
      ∧ (t.addressingEnabled = true →
          t.readOpcode.toNat = 0x40 + 2 * t.hardwareAddress.toNat + 1
          ∧ t.writeOpcode.toNat = 0x40 + 2 * t.hardwareAddress.toNat)
      ∧ (t.addressingEnabled = false → t.readOpcode = 0x01 ∧ t.writeOpcode = 0x00 ∧ t.hardwareAddress = 0)

/-- R103: CONFIGURE may be repeated before BEGIN, and the last one gives the same state as it would alone. -/
def Obligations.LastConfigureWins : Prop :=
  ∀ (sel sel' : Half) (code code' : Byte) (speed speed' : Speed) (s : State), s.begun = false →
    ∃ t u, exec (.configure sel code speed) s = .next t ∧ exec (.configure sel' code' speed') t = .next u
      ∧ exec (.configure sel' code' speed') s = .next u

/-- R104, R105: SET_SPEED, its word, and the clamped speed, in every state and with every other field unchanged; a speed of 0
turns reservations off for every command that runs at it; a CONFIGURE after it overwrites it. -/
def Obligations.SetSpeedClamps : Prop :=
  CodeSpells 0x02 (fun w => aField w = 0 ∧ dField w = 0) (fun w => .setSpeed (sField w))
  ∧ (∀ (hz : Speed) (s : State), exec (.setSpeed hz) s =
      .next { s with transactionSpeed := BitVec.ofNat 32 (min hz.toNat s.params.maxSpeedHz.toNat) })
  ∧ (∀ (i : Instr) (s t : State), s.transactionSpeed = 0 → exec i s = .next t →
      ∃ events, t.history = s.history ++ events ∧ ∀ hz, Event.reserve hz ∉ events)
  ∧ (∀ (hz : Speed) (sel : Half) (code : Byte) (speed : Speed) (s : State), s.begun = false →
      ∃ t u, exec (.setSpeed hz) s = .next t ∧ exec (.configure sel code speed) t = .next u
        ∧ exec (.configure sel code speed) s = .next u)

/-- R106, R107: BEGIN, its word, its two faults, and its events and fields: the optional BUS_INIT, SEL_INIT, DELAY, the
control write, the shadow reset and the direction write, in that order. -/
def Obligations.BeginInitialises : Prop :=
  CodeSpells 0x03 (fun w => (aField w).extractLsb' 1 7 = 0 ∧ dField w = 0 ∧ sField w = 0) (fun w => .beginInit ((aField w).getLsbD 0))
  ∧ ∀ (skip : Bool) (s : State),
    (s.configured = false → exec (.beginInit skip) s =
      .next (marked s .notConfigured (pack 0x03 (if skip then 1 else 0) 0 0)))
    ∧ (s.configured = true → s.begun = true → exec (.beginInit skip) s =
      .next (marked s .doubleBegin (pack 0x03 (if skip then 1 else 0) 0 0)))
    ∧ (s.configured = true → s.begun = false →
      ∃ rx₁ o₁ n₁ rx₂ o₂ n₂, rx₁.length = 3 ∧ rx₂.length = 4 ∧
        let s₁ : State := { s with
          history := s.history ++ (if skip then [] else [.busInit s.params.busConfig])
            ++ [.selInit s.selectLine, .delay s.params.startupDelay]
          csLevel := true }
        let s₂ := framed s₁
          [s.writeOpcode, 0x0A, if s.addressingEnabled then s.params.ctrlAddrOn else s.params.ctrlAddrOff] rx₁ o₁ n₁
        let s₃ : State := { s₂ with shadowDirection := 0xFFFF, shadowOutput := 0x0000 }
        exec (.beginInit skip) s =
          .next { framed s₃ [s.writeOpcode, 0x00, 0xFF, 0xFF] rx₂ o₂ n₂ with begun := true })

/-- R108: BEGIN does not depend on what the shadows held before: two states that differ only in the shadows give the same
state. -/
def Obligations.BeginIgnoresOldShadows : Prop :=
  ∀ (skip : Bool) (s : State) (d o : Half), s.configured = true → s.begun = false →
    ∃ t, exec (.beginInit skip) s = .next t
      ∧ exec (.beginInit skip) { s with shadowDirection := d, shadowOutput := o } = .next t

/-! ### Register-level commands -/

/-- R123: REG_READ8, its word, its fault before BEGIN, its frame, and RESULT, the one byte received with the dummy,
zero-extended; nothing else changes. -/
def Obligations.RegRead8ReadsOneByte : Prop :=
  CodeSpells 0x10 (fun w => dField w = 0 ∧ sField w = 0) (fun w => .regRead8 (aField w))
  ∧ ∀ (reg : Byte) (s : State),
    (s.begun = false → exec (.regRead8 reg) s = .next (marked s .notBegun (pack 0x10 reg 0 0)))
    ∧ (s.begun = true → OneFrame (.regRead8 reg) s s [s.readOpcode, reg, s.params.dummyByte]
        (fun rx t => { t with result := (rx.getD 2 0).setWidth 16 }))

/-- R124: REG_READ16, its word, its fault before BEGIN, its frame, and RESULT, the two bytes received with the dummies, the
first the low half; nothing else changes. -/
def Obligations.RegRead16ReadsLowThenHigh : Prop :=
  CodeSpells 0x11 (fun w => dField w = 0 ∧ sField w = 0) (fun w => .regRead16 (aField w))
  ∧ ∀ (reg : Byte) (s : State),
    (s.begun = false → exec (.regRead16 reg) s = .next (marked s .notBegun (pack 0x11 reg 0 0)))
    ∧ (s.begun = true → OneFrame (.regRead16 reg) s s [s.readOpcode, reg, s.params.dummyByte, s.params.dummyByte]
        (fun rx t => { t with result := rx.getD 3 0 ++ rx.getD 2 0 }))

/-- R125: REG_WRITE8, its word, its faults and its frame; no field changes but those of the frame. -/
def Obligations.RegWrite8SendsOneByte : Prop :=
  CodeSpells 0x12 (fun w => (dField w).extractLsb' 8 8 = 0 ∧ sField w = 0)
    (fun w => .regWrite8 (aField w) ((dField w).extractLsb' 0 8))
  ∧ ∀ (reg data : Byte) (s : State),
    (s.begun = false → exec (.regWrite8 reg data) s = .next (marked s .notBegun (pack 0x12 reg (data.setWidth 16) 0)))
    ∧ (s.begun = true → OneFrame (.regWrite8 reg data) s s [s.writeOpcode, reg, data] (fun _ t => t))

/-- R126: REG_WRITE8_BOTH, its word, its faults and its frame, the same byte twice, the frame of REG_WRITE16 of the byte in
both halves; no field changes but those of the frame. -/
def Obligations.RegWrite8BothSendsByteTwice : Prop :=
  CodeSpells 0x13 (fun w => (dField w).extractLsb' 8 8 = 0 ∧ sField w = 0)
    (fun w => .regWrite8Both (aField w) ((dField w).extractLsb' 0 8))
  ∧ ∀ (reg data : Byte) (s : State),
    (s.begun = false →
      exec (.regWrite8Both reg data) s = .next (marked s .notBegun (pack 0x13 reg (data.setWidth 16) 0)))
    ∧ (s.begun = true → OneFrame (.regWrite8Both reg data) s s [s.writeOpcode, reg, data, data] (fun _ t => t)
        ∧ exec (.regWrite8Both reg data) s = exec (.regWrite16 reg (data ++ data)) s)

/-- R127: REG_WRITE16, its word, its fault before BEGIN and its frame, the value low byte first with no sentinel decoding;
no field changes but those of the frame. -/
def Obligations.RegWrite16SendsLowThenHigh : Prop :=
  CodeSpells 0x14 (fun w => sField w = 0) (fun w => .regWrite16 (aField w) (dField w))
  ∧ ∀ (reg : Byte) (value : Half) (s : State),
    (s.begun = false → exec (.regWrite16 reg value) s = .next (marked s .notBegun (pack 0x14 reg value 0)))
    ∧ (s.begun = true →
        OneFrame (.regWrite16 reg value) s s [s.writeOpcode, reg, value.extractLsb' 0 8, value.extractLsb' 8 8]
          (fun _ t => t))

/-- R163: a register-level write to any address, DIR, GPIO and OLAT among them, leaves both shadows as they were.
The frames of these commands are in the three statements above. -/
def Obligations.RegisterWritesLeaveShadows : Prop :=
  ∀ (i : Instr) (s t : State), i.command = .regWrite8 ∨ i.command = .regWrite8Both ∨ i.command = .regWrite16 →
    exec i s = .next t → t.shadowDirection = s.shadowDirection ∧ t.shadowOutput = s.shadowOutput

/-- R121 with R41: where the peripheral's next bytes are scripted as `b₀ b₁ b₂ b₃`, REG_READ16 gives RESULT `b₃ b₂` and
REG_READ8 gives `b₂`, and the scripted bytes are used up in order. The script is the model's form of the oracle (log 4). -/
def Obligations.ScriptedBytesAreRead : Prop :=
  ∀ (reg b₀ b₁ b₂ b₃ : Byte) (rest : List Byte) (s : State), s.begun = true → s.oracle = b₀ :: b₁ :: b₂ :: b₃ :: rest →
    (∃ t, exec (.regRead16 reg) s = .next t ∧ t.result = b₃ ++ b₂ ∧ t.oracle = rest ∧ t.drawCount = s.drawCount)
    ∧ (∃ t, exec (.regRead8 reg) s = .next t ∧ t.result = b₂.setWidth 16 ∧ t.oracle = b₃ :: rest
        ∧ t.drawCount = s.drawCount)

/-! ### Pin and port commands -/

/-- R13: `decodeLevel` by exact equality with the two sentinels, the high one first. -/
def Obligations.LevelSentinelsAreExact : Prop :=
  ∀ (p : Config.Params) (v : Half),
    (v = p.sentHigh → decodeLevel p v = 0xFFFF)
    ∧ (v ≠ p.sentHigh → v = p.sentLow → decodeLevel p v = 0x0000)
    ∧ (v ≠ p.sentHigh → v ≠ p.sentLow → decodeLevel p v = v)

/-- R150, R160: PORT_MODE, its word, its fault before BEGIN, the direction word of its operand under both readings of the
sentinels, and the frame that writes it to DIR. -/
def Obligations.PortModeWritesDirection : Prop :=
  CodeSpells 0x20 (fun w => aField w = 0 ∧ sField w = 0) (fun w => .portMode (dField w))
  ∧ ∀ (value : Half) (s : State),
    (s.begun = false → exec (.portMode value) s = .next (marked s .notBegun (pack 0x20 0 value 0)))
    ∧ (s.begun = true → ∃ v : Half,
        (s.params.dirSentinelMode = .level →
          v = if value = s.params.sentHigh then 0xFFFF else if value = s.params.sentLow then 0x0000 else value)
        ∧ (s.params.dirSentinelMode = .modeConst →
          v = if value = s.params.sentLow then 0xFFFF else if value = s.params.sentHigh then 0x0000 else value)
        ∧ OneFrame (.portMode value) s { s with shadowDirection := v }
            [s.writeOpcode, 0x00, v.extractLsb' 0 8, v.extractLsb' 8 8] (fun _ t => t))

/-- R151, R161: PIN_MODE, its word, its fault before BEGIN, the one lane of `shadowDirection` it changes and the frame that
writes the whole shadow to DIR; a pin of 16 to 255 changes nothing. -/
def Obligations.PinModeWritesOneLane : Prop :=
  CodeSpells 0x21 (fun w => (dField w).extractLsb' 1 15 = 0 ∧ sField w = 0)
    (fun w => .pinMode (aField w) ((dField w).getLsbD 0))
  ∧ ∀ (pin : Byte) (input : Bool) (s : State),
    (s.begun = false →
      exec (.pinMode pin input) s = .next (marked s .notBegun (pack 0x21 pin (if input then 1 else 0) 0)))
    ∧ (s.begun = true → 15 < pin.toNat → exec (.pinMode pin input) s = .next s)
    ∧ (s.begun = true → pin.toNat ≤ 15 → ∃ v : Half,
        (∀ j < 16, v.getLsbD j = if j = pin.toNat then input else s.shadowDirection.getLsbD j)
        ∧ OneFrame (.pinMode pin input) s { s with shadowDirection := v }
            [s.writeOpcode, 0x00, v.extractLsb' 0 8, v.extractLsb' 8 8] (fun _ t => t))

/-- R152: PORT_WRITE, its word, its fault before BEGIN, the output word of its operand and the frame that writes it to
`PORT_WRITE_REG`. -/
def Obligations.PortWriteWritesOutput : Prop :=
  CodeSpells 0x22 (fun w => aField w = 0 ∧ sField w = 0) (fun w => .portWrite (dField w))
  ∧ ∀ (value : Half) (s : State),
    (s.begun = false → exec (.portWrite value) s = .next (marked s .notBegun (pack 0x22 0 value 0)))
    ∧ (s.begun = true → ∃ v : Half,
        v = (if value = s.params.sentHigh then 0xFFFF else if value = s.params.sentLow then 0x0000 else value)
        ∧ OneFrame (.portWrite value) s { s with shadowOutput := v }
            [s.writeOpcode, portAddress s, v.extractLsb' 0 8, v.extractLsb' 8 8] (fun _ t => t))

/-- R153, R161: PIN_WRITE, its word, its fault before BEGIN, the one lane of `shadowOutput` it changes and the frame that
writes the whole shadow to `PORT_WRITE_REG`, whatever the pin's direction; a pin of 16 to 255 changes nothing. -/
def Obligations.PinWriteWritesOneLane : Prop :=
  CodeSpells 0x23 (fun w => (dField w).extractLsb' 1 15 = 0 ∧ sField w = 0)
    (fun w => .pinWrite (aField w) ((dField w).getLsbD 0))
  ∧ ∀ (pin : Byte) (level : Bool) (s : State),
    (s.begun = false →
      exec (.pinWrite pin level) s = .next (marked s .notBegun (pack 0x23 pin (if level then 1 else 0) 0)))
    ∧ (s.begun = true → 15 < pin.toNat → exec (.pinWrite pin level) s = .next s)
    ∧ (s.begun = true → pin.toNat ≤ 15 → ∃ v : Half,
        (∀ j < 16, v.getLsbD j = if j = pin.toNat then level else s.shadowOutput.getLsbD j)
        ∧ OneFrame (.pinWrite pin level) s { s with shadowOutput := v }
            [s.writeOpcode, portAddress s, v.extractLsb' 0 8, v.extractLsb' 8 8] (fun _ t => t))

/-- R154, R161: PIN_WRITE_FAST, its word, its fault before BEGIN, and the one lane of `shadowOutput` it changes, with no
event and no other field; a pin of 16 to 255 changes nothing. -/
def Obligations.PinWriteFastTouchesShadowOnly : Prop :=
  CodeSpells 0x24 (fun w => (dField w).extractLsb' 1 15 = 0 ∧ sField w = 0)
    (fun w => .pinWriteFast (aField w) ((dField w).getLsbD 0))
  ∧ ∀ (pin : Byte) (level : Bool) (s : State),
    (s.begun = false →
      exec (.pinWriteFast pin level) s = .next (marked s .notBegun (pack 0x24 pin (if level then 1 else 0) 0)))
    ∧ (s.begun = true → 15 < pin.toNat → exec (.pinWriteFast pin level) s = .next s)
    ∧ (s.begun = true → pin.toNat ≤ 15 → ∃ v : Half,
        (∀ j < 16, v.getLsbD j = if j = pin.toNat then level else s.shadowOutput.getLsbD j)
        ∧ exec (.pinWriteFast pin level) s = .next { s with shadowOutput := v })

/-- R155: PORT_UPDATE, its word, its fault before BEGIN, and the frame that writes `shadowOutput` to `PORT_WRITE_REG`; no
shadow changes. -/
def Obligations.PortUpdateFlushesOutput : Prop :=
  CodeSpells 0x25 (fun w => aField w = 0 ∧ dField w = 0 ∧ sField w = 0) (fun _ => .portUpdate)
  ∧ ∀ s : State,
    (s.begun = false → exec .portUpdate s = .next (marked s .notBegun (pack 0x25 0 0 0)))
    ∧ (s.begun = true → OneFrame .portUpdate s s
        [s.writeOpcode, portAddress s, s.shadowOutput.extractLsb' 0 8, s.shadowOutput.extractLsb' 8 8] (fun _ t => t))

/-- R156: PORT_READ, its word, its fault before BEGIN, the frame that reads GPIO, and RESULT; no shadow changes. -/
def Obligations.PortReadReadsGpio : Prop :=
  CodeSpells 0x26 (fun w => aField w = 0 ∧ dField w = 0 ∧ sField w = 0) (fun _ => .portRead)
  ∧ ∀ s : State,
    (s.begun = false → exec .portRead s = .next (marked s .notBegun (pack 0x26 0 0 0)))
    ∧ (s.begun = true → OneFrame .portRead s s [s.readOpcode, 0x12, s.params.dummyByte, s.params.dummyByte]
        (fun rx t => { t with result := rx.getD 3 0 ++ rx.getD 2 0 }))

/-- R157, R161, R170: PIN_READ, its word, its fault before BEGIN; a pin of 0 to 15 reads all of GPIO and RESULT is the
pin's bit; a pin of 16 to 255 makes no transaction and RESULT is a draw, of which nothing is said (its form: log 5). -/
def Obligations.PinReadReadsOnePin : Prop :=
  CodeSpells 0x27 (fun w => dField w = 0 ∧ sField w = 0) (fun w => .pinRead (aField w))
  ∧ ∀ (pin : Byte) (s : State),
    (s.begun = false → exec (.pinRead pin) s = .next (marked s .notBegun (pack 0x27 pin 0 0)))
    ∧ (s.begun = true → 15 < pin.toNat →
        ∃ v, exec (.pinRead pin) s = .next { s with result := v, drawCount := s.drawCount + 1 })
    ∧ (s.begun = true → pin.toNat ≤ 15 →
        OneFrame (.pinRead pin) s s [s.readOpcode, 0x12, s.params.dummyByte, s.params.dummyByte]
          (fun rx t => { t with
            result := if (rx.getD 3 0 ++ rx.getD 2 0 : Half).getLsbD pin.toNat then 0x0001 else 0x0000 }))

/-- R158, R161, R170: PIN_READ_FAST, its word, its fault before BEGIN; a pin of 0 to 15 gives the bit of `shadowOutput`; a
pin of 16 to 255 gives a draw, of which nothing is said (its form: log 5); no event, and no other field of the block
changes. -/
def Obligations.PinReadFastReadsShadow : Prop :=
  CodeSpells 0x28 (fun w => dField w = 0 ∧ sField w = 0) (fun w => .pinReadFast (aField w))
  ∧ ∀ (pin : Byte) (s : State),
    (s.begun = false → exec (.pinReadFast pin) s = .next (marked s .notBegun (pack 0x28 pin 0 0)))
    ∧ (s.begun = true → 15 < pin.toNat →
        ∃ v, exec (.pinReadFast pin) s = .next { s with result := v, drawCount := s.drawCount + 1 })
    ∧ (s.begun = true → pin.toNat ≤ 15 → exec (.pinReadFast pin) s =
        .next { s with result := if s.shadowOutput.getLsbD pin.toNat then 0x0001 else 0x0000 })

/-- R159: PORT_PULLUP, its word, its fault before BEGIN, and the frame that writes the decoded operand to PULLUP; no shadow
changes. -/
def Obligations.PortPullupWritesPullup : Prop :=
  CodeSpells 0x29 (fun w => aField w = 0 ∧ sField w = 0) (fun w => .portPullup (dField w))
  ∧ ∀ (value : Half) (s : State),
    (s.begun = false → exec (.portPullup value) s = .next (marked s .notBegun (pack 0x29 0 value 0)))
    ∧ (s.begun = true → ∃ v : Half,
        v = (if value = s.params.sentHigh then 0xFFFF else if value = s.params.sentLow then 0x0000 else value)
        ∧ OneFrame (.portPullup value) s s [s.writeOpcode, 0x0C, v.extractLsb' 0 8, v.extractLsb' 8 8] (fun _ t => t))

/-- R171: after a command that writes a shadow and the port, the frame's last two bytes are the shadow's new value, low byte
first, and for a single-pin command the shadow differs from its old value in no other lane. -/
def Obligations.WrittenValueEqualsShadow : Prop :=
  (∀ (i : Instr) (s t : State), s.begun = true → exec i s = .next t →
    (i.command = .portMode ∨ ∃ pin input, i = .pinMode pin input ∧ pin.toNat ≤ 15) →
    ∃ rx, rx.length = 4 ∧ t.history = s.history ++ frame s
      [s.writeOpcode, 0x00, t.shadowDirection.extractLsb' 0 8, t.shadowDirection.extractLsb' 8 8] rx)
  ∧ (∀ (i : Instr) (s t : State), s.begun = true → exec i s = .next t →
    (i.command = .portWrite ∨ ∃ pin level, i = .pinWrite pin level ∧ pin.toNat ≤ 15) →
    ∃ rx, rx.length = 4 ∧ t.history = s.history ++ frame s
      [s.writeOpcode, portAddress s, t.shadowOutput.extractLsb' 0 8, t.shadowOutput.extractLsb' 8 8] rx)
  ∧ (∀ (pin : Byte) (b : Bool) (s t : State) (j : Nat), j ≠ pin.toNat →
    (exec (.pinMode pin b) s = .next t → t.shadowDirection.getLsbD j = s.shadowDirection.getLsbD j)
    ∧ (exec (.pinWrite pin b) s = .next t → t.shadowOutput.getLsbD j = s.shadowOutput.getLsbD j))

/-- The source's property S3 (95_test_vectors.md section 1; R154, R158): a fast write and then a fast read of the same pin
gives the value written, with no event at all. -/
def Obligations.FastWriteThenFastRead : Prop :=
  ∀ (pin : Byte) (level : Bool) (s : State), s.begun = true → pin.toNat ≤ 15 →
    ∃ t u, exec (.pinWriteFast pin level) s = .next t ∧ exec (.pinReadFast pin) t = .next u
      ∧ u.result = (if level then 0x0001 else 0x0000) ∧ u.history = s.history

/-- 20_memory.md R65: fast writes and then one PORT_UPDATE send the port what PIN_WRITE on the last of them sends: a PIN_WRITE
is the fast write followed by the flush. -/
def Obligations.PinWriteIsFastWriteThenUpdate : Prop :=
  ∀ (pin : Byte) (level : Bool) (s : State), s.begun = true → pin.toNat ≤ 15 →
    ∃ t u, exec (.pinWriteFast pin level) s = .next t ∧ exec .portUpdate t = .next u
      ∧ exec (.pinWrite pin level) s = .next u

/-! ### Rules of the whole machine -/

/-- The column "written by" of 10_state.md R22 (R44): for every command, a field it is not named for is as it was; the
commands that make no transaction append no event and leave the bus-side fields alone; no command changes the parameters
or the host's moves. -/
def Obligations.FieldsWrittenOnlyByNamedCommands : Prop :=
  ∀ (i : Instr) (s t : State), exec i s = .next t →
    (i.command ≠ .configure → t.selectLine = s.selectLine ∧ t.addressingEnabled = s.addressingEnabled
      ∧ t.hardwareAddress = s.hardwareAddress ∧ t.readOpcode = s.readOpcode ∧ t.writeOpcode = s.writeOpcode
      ∧ t.configured = s.configured)
    ∧ (i.command ∉ [.configure, .setSpeed] → t.transactionSpeed = s.transactionSpeed)
    ∧ (i.command ∉ [.beginInit, .portMode, .pinMode] → t.shadowDirection = s.shadowDirection)
    ∧ (i.command ∉ [.beginInit, .portWrite, .pinWrite, .pinWriteFast] → t.shadowOutput = s.shadowOutput)
    ∧ (i.command ≠ .beginInit → t.begun = s.begun)
    ∧ (i.command ∉ [.regRead8, .regRead16, .portRead, .pinRead, .pinReadFast] → t.result = s.result)
    ∧ (i.command ∈ [.configure, .setSpeed, .pinWriteFast, .pinReadFast] →
        t.history = s.history ∧ t.csLevel = s.csLevel ∧ t.reservationHeld = s.reservationHeld)
    ∧ t.params = s.params ∧ t.hostMoves = s.hostMoves

/-- R40: events are only appended: every command keeps the history so far as it is. -/
def Obligations.HistoryOnlyGrows : Prop :=
  ∀ (i : Instr) (s t : State), exec i s = .next t → ∃ events, t.history = s.history ++ events

/-- R42, R58: each command makes exactly the transactions its rule gives: BEGIN two, the commands that only touch fields
none, a pin command out of range none, every other one, counted by select-low events. -/
def Obligations.TransactionsPerCommand : Prop :=
  ∀ (i : Instr) (s t : State), lifecycleCheck i s = none → exec i s = .next t →
    transactionCount t = transactionCount s + transactionsOf i

/-- R128 with R41: no command's behaviour depends on a byte received: from two states that differ only in the answers the
oracle will give, every command leaves the same fields and has sent the same events, RESULT and the received bytes
apart. -/
def Obligations.BlindToReceivedBytes : Prop :=
  ∀ (i : Instr) (s : State) (oracle : List Byte) (drawCount : Nat),
    ∃ t t', exec i s = .next t ∧ exec i (withOracle s oracle drawCount) = .next t' ∧ blindView t' = blindView t

/-- R186, R128, R181: no command stops: `exec`, which a word reaches only after the check of the fault mark (R183), answers a
next state for every command and every state. Where a lifecycle fault applies, that next state is the model's reading of
R181 (log 2). -/
def Obligations.EveryCommandAnswers : Prop := ∀ (i : Instr) (s : State), ∃ t, exec i s = .next t

/-- From BEGIN on, every step that is not a reset keeps `begun`, `configured`, the select line, the addressing mode, the
hardware address and the two opcodes (10_state.md R23 to R28, R34, R35). The transaction speed is not among them: SET_SPEED
may change it after BEGIN (40_configuration.md R105). Reset as a host's move: log 11. -/
def Obligations.SelectionAndOpcodesConstantAfterBegin : Prop :=
  ∀ s t : State, s.begun = true → step s = .next t →
    (∃ rest, s.hostMoves = .reset :: rest)
    ∨ (t.begun = true ∧ t.configured = s.configured ∧ t.selectLine = s.selectLine
      ∧ t.addressingEnabled = s.addressingEnabled ∧ t.hardwareAddress = s.hardwareAddress
      ∧ t.readOpcode = s.readOpcode ∧ t.writeOpcode = s.writeOpcode)

/-! ### Invariants every step keeps -/

/-- The invariant `Inv` of Safety.lean holds after reset, for the spec's default parameters and for every other value. -/
def Obligations.InvariantHoldsAtReset : Prop := Inv State.reset ∧ ∀ p : Config.Params, Inv (State.resetWith p)

/-- R28: every step, from every state that has it, keeps the opcodes in agreement with the hardware address and the mode. -/
def Obligations.EveryStepKeepsOpcodesAgreeing : Prop :=
  ∀ s t : State, opcodesAgree s → step s = .next t → opcodesAgree t

/-- R29: every step keeps the transaction speed within the maximum. -/
def Obligations.EveryStepKeepsSpeedLegal : Prop := ∀ s t : State, speedLegal s → step s = .next t → speedLegal t

/-- R37, R38: every step leaves no reservation held and, from BEGIN on, select high. -/
def Obligations.EveryStepLeavesBusAtRest : Prop := ∀ s t : State, busAtRest s → step s = .next t → busAtRest t

/-- R184, R204: every step keeps the lifecycle: begun only after configured, and no event before BEGIN. -/
def Obligations.EveryStepKeepsLifecycleOrder : Prop :=
  ∀ s t : State, lifecycleOrdered s → step s = .next t → lifecycleOrdered t

/-- R57, R61, R80, R120: every step keeps the history well framed: every event stands where the framing protocol allows it,
on the one select line, each frame three or four bytes long and opened by an opcode, each reservation around exactly one
frame. -/
def Obligations.EveryStepKeepsHistoryFramed : Prop :=
  ∀ s t : State, lifecycleOrdered s → wellFramed s → step s = .next t → wellFramed t

/-- Every step keeps the whole invariant `Inv`, from every state that has it. -/
def Obligations.EveryStepKeepsInvariant : Prop := ∀ s t : State, Inv s → step s = .next t → Inv t

/-! ### The assembler's lines -/

/-- R78: the pseudo-instructions stand for the words of the commands R78 expands them to. -/
def Obligations.PseudoInstructionsExpand : Prop :=
  ∀ (p : Config.Params) (pin : Byte),
    assemble p .pinInput [.number pin.toNat] = some (encode (.pinMode pin true))
    ∧ assemble p .pinOutput [.number pin.toNat] = some (encode (.pinMode pin false))
    ∧ assemble p .pinHigh [.number pin.toNat] = some (encode (.pinWrite pin true))
    ∧ assemble p .pinLow [.number pin.toNat] = some (encode (.pinWrite pin false))
    ∧ assemble p .portAllHigh [] = some (encode (.portWrite p.sentHigh))
    ∧ assemble p .portAllLow [] = some (encode (.portWrite p.sentLow))
    ∧ assemble p .flush [] = some (encode .portUpdate)

/-- R78: a line of a command with its operands in the order R78 gives them stands for the word of that command, a register
written as a number or as a mnemonic of 10_state.md R30. A line is data here, a mnemonic and its operands (log 15). -/
def Obligations.AssemblerLinesStandForWords : Prop :=
  ∀ (p : Config.Params) (pin code : Byte) (sel value : Half) (speed : Speed) (b : Bool),
    (assemble p (.command .configure) [.number sel.toNat, .number code.toNat, .number speed.toNat]
        = some (encode (.configure sel code speed))
      ∧ assemble p (.command .setSpeed) [.number speed.toNat] = some (encode (.setSpeed speed))
      ∧ assemble p (.command .beginInit) [.number b.toNat] = some (encode (.beginInit b)))
    ∧ (∀ (o : AsmOperand) (reg data : Byte),
        o = .number reg.toNat ∨ (∃ r : RegName, o = .register r ∧ reg = registerAddress r) →
        assemble p (.command .regRead8) [o] = some (encode (.regRead8 reg))
        ∧ assemble p (.command .regRead16) [o] = some (encode (.regRead16 reg))
        ∧ assemble p (.command .regWrite8) [o, .number data.toNat] = some (encode (.regWrite8 reg data))
        ∧ assemble p (.command .regWrite8Both) [o, .number data.toNat] = some (encode (.regWrite8Both reg data))
        ∧ assemble p (.command .regWrite16) [o, .number value.toNat] = some (encode (.regWrite16 reg value)))
    ∧ (assemble p (.command .portMode) [.number value.toNat] = some (encode (.portMode value))
      ∧ assemble p (.command .portWrite) [.number value.toNat] = some (encode (.portWrite value))
      ∧ assemble p (.command .portPullup) [.number value.toNat] = some (encode (.portPullup value))
      ∧ assemble p (.command .pinMode) [.number pin.toNat, .dirIn] = some (encode (.pinMode pin true))
      ∧ assemble p (.command .pinMode) [.number pin.toNat, .dirOut] = some (encode (.pinMode pin false))
      ∧ assemble p (.command .pinWrite) [.number pin.toNat, .number b.toNat] = some (encode (.pinWrite pin b))
      ∧ assemble p (.command .pinWriteFast) [.number pin.toNat, .number b.toNat] = some (encode (.pinWriteFast pin b)))
    ∧ (assemble p (.command .portUpdate) [] = some (encode .portUpdate)
      ∧ assemble p (.command .portRead) [] = some (encode .portRead)
      ∧ assemble p (.command .pinRead) [.number pin.toNat] = some (encode (.pinRead pin))
      ∧ assemble p (.command .pinReadFast) [.number pin.toNat] = some (encode (.pinReadFast pin)))

/-- R30: the register map: the eleven addresses, the widths and the two registers marked read-only. -/
def Obligations.RegisterMapAddresses : Prop :=
  (registerAddress .ctrl = 0x0A ∧ registerAddress .dir = 0x00 ∧ registerAddress .pullup = 0x0C
    ∧ registerAddress .gpio = 0x12 ∧ registerAddress .inten = 0x04 ∧ registerAddress .pol = 0x02
    ∧ registerAddress .defval = 0x06 ∧ registerAddress .intf = 0x0E ∧ registerAddress .intcap = 0x10
    ∧ registerAddress .olat = 0x14 ∧ registerAddress .intcon = 0x08)
  ∧ (∀ r : RegName, registerWidth r = if r = .ctrl then 8 else 16)
  ∧ (∀ r : RegName, registerReadOnly r = true ↔ r = .intf ∨ r = .intcap)
end

