-- ==== Sys2Proof/Laws/Decode.lean ====
section
/-! SUPPORT. The fields of a word and of a packed word (30_encoding.md R71). -/

namespace Sys2Proof

@[simp] theorem cmdField_pack (c a : Byte) (d : Half) (s : Speed) : cmdField (pack c a d s) = c := by
  ext i hi
  simp [cmdField, pack, hi, show i < 16 by omega, show i < 32 by omega, show i < 64 by omega]

@[simp] theorem aField_pack (c a : Byte) (d : Half) (s : Speed) : aField (pack c a d s) = a := by
  ext i hi
  simp [aField, pack, hi, show 8 + i < 16 by omega, show 8 + i < 32 by omega, show 8 + i < 64 by omega]

@[simp] theorem dField_pack (c a : Byte) (d : Half) (s : Speed) : dField (pack c a d s) = d := by
  ext i hi
  simp [dField, pack, hi, show 16 + i < 32 by omega, show 16 + i < 64 by omega,
    c.getLsbD_of_ge (16 + i) (by omega), a.getLsbD_of_ge (16 + i - 8) (by omega)]

@[simp] theorem sField_pack (c a : Byte) (d : Half) (s : Speed) : sField (pack c a d s) = s := by
  ext i hi
  simp [sField, pack, hi, show 32 + i < 64 by omega, c.getLsbD_of_ge (32 + i) (by omega),
    a.getLsbD_of_ge (32 + i - 8) (by omega), d.getLsbD_of_ge (32 + i - 16) (by omega)]

@[simp] theorem cmdField_and (v w : CommandWord) : cmdField (v &&& w) = cmdField v &&& cmdField w := by
  simp [cmdField, BitVec.extractLsb'_and]

@[simp] theorem aField_and (v w : CommandWord) : aField (v &&& w) = aField v &&& aField w := by
  simp [aField, BitVec.extractLsb'_and]

@[simp] theorem dField_and (v w : CommandWord) : dField (v &&& w) = dField v &&& dField w := by
  simp [dField, BitVec.extractLsb'_and]

@[simp] theorem sField_and (v w : CommandWord) : sField (v &&& w) = sField v &&& sField w := by
  simp [sField, BitVec.extractLsb'_and]

/-- A word is its four fields packed. -/
theorem pack_fields (w : CommandWord) : pack (cmdField w) (aField w) (dField w) (sField w) = w := by
  ext i hi
  simp [pack, cmdField, aField, dField, sField]
  grind

/-- Two words are the same when their four fields are. -/
theorem word_ext {v w : CommandWord} (hc : cmdField v = cmdField w) (ha : aField v = aField w)
    (hd : dField v = dField w) (hs : sField v = sField w) : v = w := by
  rw [← pack_fields v, ← pack_fields w, hc, ha, hd, hs]

/-- A data byte has nothing in D[15:8]. -/
theorem byteHalf_and_high (b : Byte) : byteHalf b &&& 0xFF00 = 0 := by
  ext i hi
  by_cases h : i < 8
  · have hm : ∀ j : Fin 8, (0xFF00#16).getLsbD j = false := by decide
    have := hm ⟨i, h⟩
    simp_all [BitVec.getLsbD_eq_getElem]
  · simp [byteHalf, b.getLsbD_of_ge i (by omega)]

/-- A one-bit operand has nothing in D[15:1]. -/
theorem bitHalf_and_high (b : Bool) : bitHalf b &&& 0xFFFE = 0 := by cases b <;> decide

/-- The row a code finds is the row of that code. -/
theorem lookupRow_code {code : Byte} {row : OpcodeRow} (h : lookupRow code = some row) :
    cmdField row.pattern = code := by
  simpa using List.find?_some h

/-- The row a code finds is a row of the table. -/
theorem lookupRow_mem {code : Byte} {row : OpcodeRow} (h : lookupRow code = some row) : row ∈ opcodeTable :=
  List.mem_of_find?_eq_some h

/-- The inversion of `decode`: what a decoded word is. -/
theorem decode_ok {w : CommandWord} {i : Instr} (h : decode w = .ok i) :
    ∃ row, lookupRow (cmdField w) = some row ∧ w &&& row.mask = row.pattern ∧ i = operandsOf w row.command := by
  unfold decode at h
  split at h
  · cases h
  · rename_i row hr
    split at h
    · exact ⟨row, hr, ‹_›, (Except.ok.inj h).symm⟩
    · cases h

end Sys2Proof
end

