-- ==== Sys2Proof/Laws/State.lean ====
section
/-! SUPPORT. One lemma per field of the state for each named update, so that no proof unfolds a record update. -/

namespace Sys2Proof.Machine

@[simp] theorem emit_params (e : Event) (s : State) : (emit e s).params = s.params := rfl
@[simp] theorem emit_selectLine (e : Event) (s : State) : (emit e s).selectLine = s.selectLine := rfl
@[simp] theorem emit_addressingEnabled (e : Event) (s : State) : (emit e s).addressingEnabled = s.addressingEnabled := rfl
@[simp] theorem emit_hardwareAddress (e : Event) (s : State) : (emit e s).hardwareAddress = s.hardwareAddress := rfl
@[simp] theorem emit_readOpcode (e : Event) (s : State) : (emit e s).readOpcode = s.readOpcode := rfl
@[simp] theorem emit_writeOpcode (e : Event) (s : State) : (emit e s).writeOpcode = s.writeOpcode := rfl
@[simp] theorem emit_transactionSpeed (e : Event) (s : State) : (emit e s).transactionSpeed = s.transactionSpeed := rfl
@[simp] theorem emit_shadowDirection (e : Event) (s : State) : (emit e s).shadowDirection = s.shadowDirection := rfl
@[simp] theorem emit_shadowOutput (e : Event) (s : State) : (emit e s).shadowOutput = s.shadowOutput := rfl
@[simp] theorem emit_configured (e : Event) (s : State) : (emit e s).configured = s.configured := rfl
@[simp] theorem emit_begun (e : Event) (s : State) : (emit e s).begun = s.begun := rfl
@[simp] theorem emit_result (e : Event) (s : State) : (emit e s).result = s.result := rfl
@[simp] theorem emit_csLevel (e : Event) (s : State) : (emit e s).csLevel = s.csLevel := rfl
@[simp] theorem emit_reservationHeld (e : Event) (s : State) : (emit e s).reservationHeld = s.reservationHeld := rfl
@[simp] theorem emit_fault (e : Event) (s : State) : (emit e s).fault = s.fault := rfl
@[simp] theorem emit_history (e : Event) (s : State) : (emit e s).history = s.history ++ [e] := rfl
@[simp] theorem emit_oracle (e : Event) (s : State) : (emit e s).oracle = s.oracle := rfl
@[simp] theorem emit_drawCount (e : Event) (s : State) : (emit e s).drawCount = s.drawCount := rfl
@[simp] theorem emit_hostMoves (e : Event) (s : State) : (emit e s).hostMoves = s.hostMoves := rfl

@[simp] theorem writeResult_params (v : Half) (s : State) : (writeResult v s).params = s.params := rfl
@[simp] theorem writeResult_selectLine (v : Half) (s : State) : (writeResult v s).selectLine = s.selectLine := rfl
@[simp] theorem writeResult_addressingEnabled (v : Half) (s : State) : (writeResult v s).addressingEnabled = s.addressingEnabled := rfl
@[simp] theorem writeResult_hardwareAddress (v : Half) (s : State) : (writeResult v s).hardwareAddress = s.hardwareAddress := rfl
@[simp] theorem writeResult_readOpcode (v : Half) (s : State) : (writeResult v s).readOpcode = s.readOpcode := rfl
@[simp] theorem writeResult_writeOpcode (v : Half) (s : State) : (writeResult v s).writeOpcode = s.writeOpcode := rfl
@[simp] theorem writeResult_transactionSpeed (v : Half) (s : State) : (writeResult v s).transactionSpeed = s.transactionSpeed := rfl
@[simp] theorem writeResult_shadowDirection (v : Half) (s : State) : (writeResult v s).shadowDirection = s.shadowDirection := rfl
@[simp] theorem writeResult_shadowOutput (v : Half) (s : State) : (writeResult v s).shadowOutput = s.shadowOutput := rfl
@[simp] theorem writeResult_configured (v : Half) (s : State) : (writeResult v s).configured = s.configured := rfl
@[simp] theorem writeResult_begun (v : Half) (s : State) : (writeResult v s).begun = s.begun := rfl
@[simp] theorem writeResult_result (v : Half) (s : State) : (writeResult v s).result = v := rfl
@[simp] theorem writeResult_csLevel (v : Half) (s : State) : (writeResult v s).csLevel = s.csLevel := rfl
@[simp] theorem writeResult_reservationHeld (v : Half) (s : State) : (writeResult v s).reservationHeld = s.reservationHeld := rfl
@[simp] theorem writeResult_fault (v : Half) (s : State) : (writeResult v s).fault = s.fault := rfl
@[simp] theorem writeResult_history (v : Half) (s : State) : (writeResult v s).history = s.history := rfl
@[simp] theorem writeResult_oracle (v : Half) (s : State) : (writeResult v s).oracle = s.oracle := rfl
@[simp] theorem writeResult_drawCount (v : Half) (s : State) : (writeResult v s).drawCount = s.drawCount := rfl
@[simp] theorem writeResult_hostMoves (v : Half) (s : State) : (writeResult v s).hostMoves = s.hostMoves := rfl

@[simp] theorem presentWord_params (w : CommandWord) (s : State) : (presentWord w s).params = s.params := rfl
@[simp] theorem presentWord_selectLine (w : CommandWord) (s : State) : (presentWord w s).selectLine = s.selectLine := rfl
@[simp] theorem presentWord_addressingEnabled (w : CommandWord) (s : State) : (presentWord w s).addressingEnabled = s.addressingEnabled := rfl
@[simp] theorem presentWord_hardwareAddress (w : CommandWord) (s : State) : (presentWord w s).hardwareAddress = s.hardwareAddress := rfl
@[simp] theorem presentWord_readOpcode (w : CommandWord) (s : State) : (presentWord w s).readOpcode = s.readOpcode := rfl
@[simp] theorem presentWord_writeOpcode (w : CommandWord) (s : State) : (presentWord w s).writeOpcode = s.writeOpcode := rfl
@[simp] theorem presentWord_transactionSpeed (w : CommandWord) (s : State) : (presentWord w s).transactionSpeed = s.transactionSpeed := rfl
@[simp] theorem presentWord_shadowDirection (w : CommandWord) (s : State) : (presentWord w s).shadowDirection = s.shadowDirection := rfl
@[simp] theorem presentWord_shadowOutput (w : CommandWord) (s : State) : (presentWord w s).shadowOutput = s.shadowOutput := rfl
@[simp] theorem presentWord_configured (w : CommandWord) (s : State) : (presentWord w s).configured = s.configured := rfl
@[simp] theorem presentWord_begun (w : CommandWord) (s : State) : (presentWord w s).begun = s.begun := rfl
@[simp] theorem presentWord_result (w : CommandWord) (s : State) : (presentWord w s).result = s.result := rfl
@[simp] theorem presentWord_csLevel (w : CommandWord) (s : State) : (presentWord w s).csLevel = s.csLevel := rfl
@[simp] theorem presentWord_reservationHeld (w : CommandWord) (s : State) : (presentWord w s).reservationHeld = s.reservationHeld := rfl
@[simp] theorem presentWord_fault (w : CommandWord) (s : State) : (presentWord w s).fault = s.fault := rfl
@[simp] theorem presentWord_history (w : CommandWord) (s : State) : (presentWord w s).history = s.history := rfl
@[simp] theorem presentWord_oracle (w : CommandWord) (s : State) : (presentWord w s).oracle = s.oracle := rfl
@[simp] theorem presentWord_drawCount (w : CommandWord) (s : State) : (presentWord w s).drawCount = s.drawCount := rfl
@[simp] theorem presentWord_hostMoves (w : CommandWord) (s : State) : (presentWord w s).hostMoves = .command w :: s.hostMoves := rfl

@[simp] theorem marked_params (s : State) (k : FaultKind) (w : CommandWord) : (marked s k w).params = s.params := rfl
@[simp] theorem marked_selectLine (s : State) (k : FaultKind) (w : CommandWord) : (marked s k w).selectLine = s.selectLine := rfl
@[simp] theorem marked_addressingEnabled (s : State) (k : FaultKind) (w : CommandWord) : (marked s k w).addressingEnabled = s.addressingEnabled := rfl
@[simp] theorem marked_hardwareAddress (s : State) (k : FaultKind) (w : CommandWord) : (marked s k w).hardwareAddress = s.hardwareAddress := rfl
@[simp] theorem marked_readOpcode (s : State) (k : FaultKind) (w : CommandWord) : (marked s k w).readOpcode = s.readOpcode := rfl
@[simp] theorem marked_writeOpcode (s : State) (k : FaultKind) (w : CommandWord) : (marked s k w).writeOpcode = s.writeOpcode := rfl
@[simp] theorem marked_transactionSpeed (s : State) (k : FaultKind) (w : CommandWord) : (marked s k w).transactionSpeed = s.transactionSpeed := rfl
@[simp] theorem marked_shadowDirection (s : State) (k : FaultKind) (w : CommandWord) : (marked s k w).shadowDirection = s.shadowDirection := rfl
@[simp] theorem marked_shadowOutput (s : State) (k : FaultKind) (w : CommandWord) : (marked s k w).shadowOutput = s.shadowOutput := rfl
@[simp] theorem marked_configured (s : State) (k : FaultKind) (w : CommandWord) : (marked s k w).configured = s.configured := rfl
@[simp] theorem marked_begun (s : State) (k : FaultKind) (w : CommandWord) : (marked s k w).begun = s.begun := rfl
@[simp] theorem marked_result (s : State) (k : FaultKind) (w : CommandWord) : (marked s k w).result = s.result := rfl
@[simp] theorem marked_csLevel (s : State) (k : FaultKind) (w : CommandWord) : (marked s k w).csLevel = s.csLevel := rfl
@[simp] theorem marked_reservationHeld (s : State) (k : FaultKind) (w : CommandWord) : (marked s k w).reservationHeld = s.reservationHeld := rfl
@[simp] theorem marked_fault (s : State) (k : FaultKind) (w : CommandWord) : (marked s k w).fault = some ⟨k, w⟩ := rfl
@[simp] theorem marked_history (s : State) (k : FaultKind) (w : CommandWord) : (marked s k w).history = s.history := rfl
@[simp] theorem marked_oracle (s : State) (k : FaultKind) (w : CommandWord) : (marked s k w).oracle = s.oracle := rfl
@[simp] theorem marked_drawCount (s : State) (k : FaultKind) (w : CommandWord) : (marked s k w).drawCount = s.drawCount := rfl
@[simp] theorem marked_hostMoves (s : State) (k : FaultKind) (w : CommandWord) : (marked s k w).hostMoves = s.hostMoves := rfl

@[simp] theorem withOracle_params (s : State) (o : List Byte) (n : Nat) : (withOracle s o n).params = s.params := rfl
@[simp] theorem withOracle_selectLine (s : State) (o : List Byte) (n : Nat) : (withOracle s o n).selectLine = s.selectLine := rfl
@[simp] theorem withOracle_addressingEnabled (s : State) (o : List Byte) (n : Nat) : (withOracle s o n).addressingEnabled = s.addressingEnabled := rfl
@[simp] theorem withOracle_hardwareAddress (s : State) (o : List Byte) (n : Nat) : (withOracle s o n).hardwareAddress = s.hardwareAddress := rfl
@[simp] theorem withOracle_readOpcode (s : State) (o : List Byte) (n : Nat) : (withOracle s o n).readOpcode = s.readOpcode := rfl
@[simp] theorem withOracle_writeOpcode (s : State) (o : List Byte) (n : Nat) : (withOracle s o n).writeOpcode = s.writeOpcode := rfl
@[simp] theorem withOracle_transactionSpeed (s : State) (o : List Byte) (n : Nat) : (withOracle s o n).transactionSpeed = s.transactionSpeed := rfl
@[simp] theorem withOracle_shadowDirection (s : State) (o : List Byte) (n : Nat) : (withOracle s o n).shadowDirection = s.shadowDirection := rfl
@[simp] theorem withOracle_shadowOutput (s : State) (o : List Byte) (n : Nat) : (withOracle s o n).shadowOutput = s.shadowOutput := rfl
@[simp] theorem withOracle_configured (s : State) (o : List Byte) (n : Nat) : (withOracle s o n).configured = s.configured := rfl
@[simp] theorem withOracle_begun (s : State) (o : List Byte) (n : Nat) : (withOracle s o n).begun = s.begun := rfl
@[simp] theorem withOracle_result (s : State) (o : List Byte) (n : Nat) : (withOracle s o n).result = s.result := rfl
@[simp] theorem withOracle_csLevel (s : State) (o : List Byte) (n : Nat) : (withOracle s o n).csLevel = s.csLevel := rfl
@[simp] theorem withOracle_reservationHeld (s : State) (o : List Byte) (n : Nat) : (withOracle s o n).reservationHeld = s.reservationHeld := rfl
@[simp] theorem withOracle_fault (s : State) (o : List Byte) (n : Nat) : (withOracle s o n).fault = s.fault := rfl
@[simp] theorem withOracle_history (s : State) (o : List Byte) (n : Nat) : (withOracle s o n).history = s.history := rfl
@[simp] theorem withOracle_oracle (s : State) (o : List Byte) (n : Nat) : (withOracle s o n).oracle = o := rfl
@[simp] theorem withOracle_drawCount (s : State) (o : List Byte) (n : Nat) : (withOracle s o n).drawCount = n := rfl
@[simp] theorem withOracle_hostMoves (s : State) (o : List Byte) (n : Nat) : (withOracle s o n).hostMoves = s.hostMoves := rfl

@[simp] theorem afterFrame_params (s : State) (bs : List Byte) : (afterFrame s bs).params = s.params := rfl
@[simp] theorem afterFrame_selectLine (s : State) (bs : List Byte) : (afterFrame s bs).selectLine = s.selectLine := rfl
@[simp] theorem afterFrame_addressingEnabled (s : State) (bs : List Byte) : (afterFrame s bs).addressingEnabled = s.addressingEnabled := rfl
@[simp] theorem afterFrame_hardwareAddress (s : State) (bs : List Byte) : (afterFrame s bs).hardwareAddress = s.hardwareAddress := rfl
@[simp] theorem afterFrame_readOpcode (s : State) (bs : List Byte) : (afterFrame s bs).readOpcode = s.readOpcode := rfl
@[simp] theorem afterFrame_writeOpcode (s : State) (bs : List Byte) : (afterFrame s bs).writeOpcode = s.writeOpcode := rfl
@[simp] theorem afterFrame_transactionSpeed (s : State) (bs : List Byte) : (afterFrame s bs).transactionSpeed = s.transactionSpeed := rfl
@[simp] theorem afterFrame_shadowDirection (s : State) (bs : List Byte) : (afterFrame s bs).shadowDirection = s.shadowDirection := rfl
@[simp] theorem afterFrame_shadowOutput (s : State) (bs : List Byte) : (afterFrame s bs).shadowOutput = s.shadowOutput := rfl
@[simp] theorem afterFrame_configured (s : State) (bs : List Byte) : (afterFrame s bs).configured = s.configured := rfl
@[simp] theorem afterFrame_begun (s : State) (bs : List Byte) : (afterFrame s bs).begun = s.begun := rfl
@[simp] theorem afterFrame_result (s : State) (bs : List Byte) : (afterFrame s bs).result = s.result := rfl
@[simp] theorem afterFrame_csLevel (s : State) (bs : List Byte) : (afterFrame s bs).csLevel = true := rfl
@[simp] theorem afterFrame_reservationHeld (s : State) (bs : List Byte) : (afterFrame s bs).reservationHeld = (s.reservationHeld && s.transactionSpeed == 0) := rfl
@[simp] theorem afterFrame_fault (s : State) (bs : List Byte) : (afterFrame s bs).fault = s.fault := rfl
@[simp] theorem afterFrame_history (s : State) (bs : List Byte) : (afterFrame s bs).history = s.history ++ frameEvents s bs := rfl
@[simp] theorem afterFrame_oracle (s : State) (bs : List Byte) : (afterFrame s bs).oracle = s.oracle.drop bs.length := rfl
@[simp] theorem afterFrame_drawCount (s : State) (bs : List Byte) : (afterFrame s bs).drawCount = s.drawCount + (bs.length - s.oracle.length) := rfl
@[simp] theorem afterFrame_hostMoves (s : State) (bs : List Byte) : (afterFrame s bs).hostMoves = s.hostMoves := rfl

end Sys2Proof.Machine
end

