-- ==== Sys2Proof/Laws/Ops.lean ====
section
/-! SUPPORT. What each shared operation does, said once: provers cite these and do not unfold the operations. -/

namespace Sys2Proof.Machine

@[simp] theorem rxBytes_zero (o : List Byte) (n : Nat) : rxBytes o n 0 = [] := by cases o <;> rfl

@[simp] theorem rxBytes_length (o : List Byte) (n k : Nat) : (rxBytes o n k).length = k := by
  induction k generalizing o n with
  | zero => simp
  | succ k ih => cases o <;> simp [rxBytes, ih]

/-- The oracle's next byte is the first of `rxBytes`, and the rest are what it gives after it. -/
theorem rxBytes_succ (s : State) (k : Nat) :
    rxBytes s.oracle s.drawCount (k + 1) = nextRx s :: rxBytes (takeRx s).oracle (takeRx s).drawCount k := by
  unfold nextRx takeRx
  cases s.oracle <;> simp [rxBytes]

/-- `takeRx` consumes the oracle's first byte, or the next free value, and touches nothing else. -/
theorem takeRx_eq (s : State) :
    takeRx s = { s with oracle := s.oracle.drop 1, drawCount := s.drawCount + (1 - s.oracle.length) } := by
  unfold takeRx
  cases h : s.oracle with
  | nil => simp
  | cons b rest => simp

/-- What sending bytes does: one XFER each, in order, with the bytes the oracle gives. -/
theorem sendAll_eq (bs : List Byte) (s : State) :
    sendAll bs s = { s with
      history := s.history ++ List.zipWith .xfer bs (received s bs)
      oracle := s.oracle.drop bs.length
      drawCount := s.drawCount + (bs.length - s.oracle.length) } := by
  induction bs generalizing s with
  | nil => simp [sendAll]
  | cons b rest ih =>
    have hr := rxBytes_succ s rest.length
    simp only [takeRx_eq] at hr
    simp only [sendAll, xfer, ih, received, emit, takeRx_eq, List.length_cons, hr, List.zipWith_cons_cons]
    simp
    omega

/-- Sending `as` and then `bs` is sending both in one run. -/
theorem sendAll_append (as bs : List Byte) (s : State) : sendAll bs (sendAll as s) = sendAll (as ++ bs) s := by
  induction as generalizing s with
  | nil => rfl
  | cons a rest ih => simp [sendAll, ih]

/-- Capturing `n` bytes is sending `n` dummy bytes and keeping what is received. -/
theorem capture_eq (n : Nat) (s : State) :
    capture n s =
      (received s (List.replicate n s.params.dummyByte), sendAll (List.replicate n s.params.dummyByte) s) := by
  induction n generalizing s with
  | zero => simp [capture, sendAll, received]
  | succ n ih =>
    have hp : (xfer s.params.dummyByte s).2.params = s.params := by simp [xfer, takeRx_eq]
    simp only [capture, ih, hp, received, List.replicate_succ, List.length_cons, sendAll, rxBytes_succ]
    simp [xfer]

/-- The bytes received over `as ++ bs` are those over `as` and then those the state after `as` gives over `bs`. -/
theorem received_append (as bs : List Byte) (s : State) :
    received s (as ++ bs) = received s as ++ received (sendAll as s) bs := by
  induction as generalizing s with
  | nil => simp [received, sendAll]
  | cons a rest ih =>
    have h := ih (xfer a s).2
    simp only [received, List.cons_append, List.length_cons, sendAll, rxBytes_succ] at h ⊢
    simpa [xfer] using h

/-- The bytes a transaction sends: opcode, address, data or dummies (30_encoding.md R80). -/
def frameBytes (rw : Access) (reg : Byte) (tx : List Byte) (nrx : Nat) (s : State) : List Byte :=
  opcodeByte rw s :: reg :: tx ++ List.replicate nrx s.params.dummyByte

/-- A transaction is one frame: it captures what is received with its dummies, and leaves the state after the frame. -/
theorem transaction_eq (rw : Access) (reg : Byte) (tx : List Byte) (nrx : Nat) (s : State) :
    transaction rw reg tx nrx s =
      ((received s (frameBytes rw reg tx nrx s)).drop (2 + tx.length), afterFrame s (frameBytes rw reg tx nrx s)) := by
  have hrx : ∀ (b : Bool) (l : List Byte), received (openFrame b s) l = received s l := by
    intro b l; cases b <;> rfl
  have hp : ∀ (l : List Byte) (t : State), (sendAll l t).params = t.params := by
    intro l t; rw [sendAll_eq]
  have ho : ∀ b : Bool, (openFrame b s).params = s.params := by intro b; cases b <;> rfl
  simp only [transaction, capture_eq, hp, ho, sendAll_append]
  refine Prod.ext ?_ ?_
  · have h := received_append (opcodeByte rw s :: reg :: tx) (List.replicate nrx s.params.dummyByte)
      (openFrame (s.transactionSpeed != 0) s)
    rw [hrx] at h
    simp only [frameBytes, h, hrx]
    have hl : (received s (opcodeByte rw s :: reg :: tx)).length = 2 + tx.length := by
      simp [received]; omega
    rw [← hl, List.drop_left]
  · simp only [sendAll_eq, hrx, frameBytes, afterFrame, frameEvents]
    by_cases hz : s.transactionSpeed = 0#32
    · simp [hz, openFrame, closeFrame, emit]
    · have hb : (s.transactionSpeed != 0) = true := by simp [hz]
      rw [hb]
      simp [hz, openFrame, closeFrame, emit]

theorem memRead8_eq (reg : Byte) (s : State) :
    memRead8 reg s =
      (fromWire (captured s [s.readOpcode, reg, s.params.dummyByte]),
        afterFrame s [s.readOpcode, reg, s.params.dummyByte]) := by
  simp [memRead8, transaction_eq, captured, frameBytes, opcodeByte]

theorem memRead16_eq (reg : Byte) (s : State) :
    memRead16 reg s =
      (fromWire (captured s [s.readOpcode, reg, s.params.dummyByte, s.params.dummyByte]),
        afterFrame s [s.readOpcode, reg, s.params.dummyByte, s.params.dummyByte]) := by
  simp [memRead16, transaction_eq, captured, frameBytes, opcodeByte, List.replicate]

theorem memWrite8_eq (reg b : Byte) (s : State) : memWrite8 reg b s = afterFrame s [s.writeOpcode, reg, b] := by
  simp [memWrite8, transaction_eq, frameBytes, opcodeByte]

theorem memWrite16_eq (reg : Byte) (v : Half) (s : State) :
    memWrite16 reg v s = afterFrame s [s.writeOpcode, reg, lowByte v, highByte v] := by
  simp [memWrite16, transaction_eq, frameBytes, opcodeByte, wireBytes]

theorem memWritePair_eq (reg b : Byte) (s : State) : memWritePair reg b s = afterFrame s [s.writeOpcode, reg, b, b] := by
  simp [memWritePair, transaction_eq, frameBytes, opcodeByte]

/-- A checked rule answers a next state always: its own, or the same state with the fault mark set. -/
theorem checked_eq (i : Instr) (rule : State → State) (s : State) :
    checked i rule s =
      match lifecycleCheck i s with
      | some kind => .next (marked s kind (encode i))
      | none => .next (rule s) := by
  unfold checked raiseFault marked
  cases lifecycleCheck i s <;> rfl

/-- The inversion of a checked rule. -/
theorem checked_cases {i : Instr} {rule : State → State} {s t : State} (h : checked i rule s = .next t) :
    (∃ kind, lifecycleCheck i s = some kind ∧ t = marked s kind (encode i)) ∨
      (lifecycleCheck i s = none ∧ t = rule s) := by
  rw [checked_eq] at h
  cases hc : lifecycleCheck i s with
  | some kind => rw [hc] at h; exact .inl ⟨kind, rfl, (Host.Outcome.next.inj h).symm⟩
  | none => rw [hc] at h; exact .inr ⟨rfl, (Host.Outcome.next.inj h).symm⟩

end Sys2Proof.Machine
end

