-- ==== Sys2Proof/Laws/Exec.lean ====
section
/-! SUPPORT. Every command is its lifecycle check and then its rule (60_exceptions.md R183): said once, so that a claim over
all commands splits the check first and the commands after. -/

namespace Sys2Proof.Machine

/-- The rule of a command, what it does where no lifecycle fault applies. -/
def ruleOf : Instr → State → State
  | .configure sel code speed => configureRule sel code speed
  | .setSpeed hz => setSpeedRule hz
  | .beginInit skip => beginRule skip
  | .regRead8 reg => regRead8Rule reg
  | .regRead16 reg => regRead16Rule reg
  | .regWrite8 reg data => regWrite8Rule reg data
  | .regWrite8Both reg data => regWrite8BothRule reg data
  | .regWrite16 reg value => regWrite16Rule reg value
  | .portMode value => portModeRule value
  | .pinMode pin input => pinModeRule pin input
  | .portWrite value => portWriteRule value
  | .pinWrite pin level => pinWriteRule pin level
  | .pinWriteFast pin level => pinWriteFastRule pin level
  | .portUpdate => portUpdateRule
  | .portRead => portReadRule
  | .pinRead pin => pinReadRule pin
  | .pinReadFast pin => pinReadFastRule pin
  | .portPullup value => portPullupRule value

/-- A command is its lifecycle check and then its rule. -/
theorem exec_eq (i : Instr) (s : State) : exec i s = checked i (ruleOf i) s := by cases i <;> rfl

/-- What a command answers: the state with the fault mark set where the lifecycle check fails, its rule's state otherwise. -/
theorem exec_cases {i : Instr} {s t : State} (h : exec i s = .next t) :
    (∃ kind, lifecycleCheck i s = some kind ∧ t = marked s kind (encode i)) ∨
      (lifecycleCheck i s = none ∧ t = ruleOf i s) :=
  checked_cases (exec_eq i s ▸ h)

/-- A command with no lifecycle fault answers its rule's state. -/
theorem exec_of_check {i : Instr} {s : State} (h : lifecycleCheck i s = none) : exec i s = .next (ruleOf i s) := by
  rw [exec_eq, checked_eq, h]

/-- A command with a lifecycle fault answers the same state with the fault mark set. -/
theorem exec_of_fault {i : Instr} {s : State} {kind : FaultKind} (h : lifecycleCheck i s = some kind) :
    exec i s = .next (marked s kind (encode i)) := by
  rw [exec_eq, checked_eq, h]

/-- What a step answers, case by case: it waits, resets, raises a decode fault or runs a command. -/
theorem step_cases {s t : State} (h : step s = .next t) :
    (s.hostMoves = [] ∧ t = s)
      ∨ (∃ rest, s.hostMoves = .reset :: rest ∧ t = resetBlock { s with hostMoves := rest })
      ∨ (∃ w rest e, s.hostMoves = .command w :: rest ∧ s.fault = none ∧ decode w = .error e
          ∧ t = marked { s with hostMoves := rest } (decodeFaultKind e) w)
      ∨ (∃ w rest i, s.hostMoves = .command w :: rest ∧ s.fault = none ∧ decode w = .ok i
          ∧ exec i { s with hostMoves := rest } = .next t) := by
  unfold step takeMove at h
  split at h
  · exact .inl ⟨‹_›, (Host.Outcome.next.inj h).symm⟩
  · rename_i w rest hm
    unfold runWord at h
    split at h
    · cases h
    · rename_i hf
      split at h
      · exact .inr (.inr (.inl ⟨w, rest, _, hm, hf, ‹_›, (Host.Outcome.next.inj h).symm⟩))
      · exact .inr (.inr (.inr ⟨w, rest, _, hm, hf, ‹_›, h⟩))
  · exact .inr (.inl ⟨_, ‹_›, (Host.Outcome.next.inj h).symm⟩)

end Sys2Proof.Machine
end

