-- ==== Sys2Proof/Laws/PerInstr.lean ====
section
/-! SUPPORT. Per-instruction statements: the word `encode` gives a command is one the command's row of opcode_table.json
accepts (30_encoding.md R76). -/

namespace Sys2Proof.Laws.EncodeAccepted

/-- The row of the command's code accepts the command's word. -/
def Statement (i : Instr) : Prop :=
  ∃ row, lookupRow (cmdField (encode i)) = some row ∧ row.command = i.command ∧ encode i &&& row.mask = row.pattern

/-- The bits a mask keeps of a packed word, field by field. -/
theorem pack_and_eq {c a : Byte} {d : Half} {s : Speed} {m p : CommandWord} (hc : c &&& cmdField m = cmdField p)
    (ha : a &&& aField m = aField p) (hd : d &&& dField m = dField p) (hs : s &&& sField m = sField p) :
    pack c a d s &&& m = p :=
  word_ext (by simpa using hc) (by simpa using ha) (by simpa using hd) (by simpa using hs)

/-- `Statement` from the row of the code and the four fields under the row's mask. -/
theorem of_fields {i : Instr} {c a : Byte} {d : Half} {s : Speed} (row : OpcodeRow) (he : encode i = pack c a d s)
    (hl : lookupRow c = some row) (hcmd : row.command = i.command) (hc : c &&& cmdField row.mask = cmdField row.pattern)
    (ha : a &&& aField row.mask = aField row.pattern) (hd : d &&& dField row.mask = dField row.pattern)
    (hs : s &&& sField row.mask = sField row.pattern) : Statement i :=
  ⟨row, by rw [he, cmdField_pack]; exact hl, hcmd, by rw [he]; exact pack_and_eq hc ha hd hs⟩

theorem configure (sel : Half) (code : Byte) (speed : Speed) : Statement (.configure sel code speed) :=
  of_fields ⟨.configure, 0x00000000000000FF, 0x01⟩ rfl rfl rfl rfl BitVec.and_zero BitVec.and_zero BitVec.and_zero

theorem setSpeed (hz : Speed) : Statement (.setSpeed hz) :=
  of_fields ⟨.setSpeed, 0x00000000FFFFFFFF, 0x02⟩ rfl rfl rfl rfl rfl rfl BitVec.and_zero

theorem beginInit (skip : Bool) : Statement (.beginInit skip) :=
  of_fields ⟨.beginInit, 0xFFFFFFFFFFFFFEFF, 0x03⟩ rfl rfl rfl rfl (by cases skip <;> decide) rfl rfl

theorem regRead8 (reg : Byte) : Statement (.regRead8 reg) :=
  of_fields ⟨.regRead8, 0xFFFFFFFFFFFF00FF, 0x10⟩ rfl rfl rfl rfl BitVec.and_zero rfl rfl

theorem regRead16 (reg : Byte) : Statement (.regRead16 reg) :=
  of_fields ⟨.regRead16, 0xFFFFFFFFFFFF00FF, 0x11⟩ rfl rfl rfl rfl BitVec.and_zero rfl rfl

theorem regWrite8 (reg data : Byte) : Statement (.regWrite8 reg data) :=
  of_fields ⟨.regWrite8, 0xFFFFFFFFFF0000FF, 0x12⟩ rfl rfl rfl rfl BitVec.and_zero (byteHalf_and_high _) rfl

theorem regWrite8Both (reg data : Byte) : Statement (.regWrite8Both reg data) :=
  of_fields ⟨.regWrite8Both, 0xFFFFFFFFFF0000FF, 0x13⟩ rfl rfl rfl rfl BitVec.and_zero (byteHalf_and_high _) rfl

theorem regWrite16 (reg : Byte) (value : Half) : Statement (.regWrite16 reg value) :=
  of_fields ⟨.regWrite16, 0xFFFFFFFF000000FF, 0x14⟩ rfl rfl rfl rfl BitVec.and_zero BitVec.and_zero rfl

theorem portMode (value : Half) : Statement (.portMode value) :=
  of_fields ⟨.portMode, 0xFFFFFFFF0000FFFF, 0x20⟩ rfl rfl rfl rfl rfl BitVec.and_zero rfl

theorem pinMode (pin : Byte) (input : Bool) : Statement (.pinMode pin input) :=
  of_fields ⟨.pinMode, 0xFFFFFFFFFFFE00FF, 0x21⟩ rfl rfl rfl rfl BitVec.and_zero (bitHalf_and_high _) rfl

theorem portWrite (value : Half) : Statement (.portWrite value) :=
  of_fields ⟨.portWrite, 0xFFFFFFFF0000FFFF, 0x22⟩ rfl rfl rfl rfl rfl BitVec.and_zero rfl

theorem pinWrite (pin : Byte) (level : Bool) : Statement (.pinWrite pin level) :=
  of_fields ⟨.pinWrite, 0xFFFFFFFFFFFE00FF, 0x23⟩ rfl rfl rfl rfl BitVec.and_zero (bitHalf_and_high _) rfl

theorem pinWriteFast (pin : Byte) (level : Bool) : Statement (.pinWriteFast pin level) :=
  of_fields ⟨.pinWriteFast, 0xFFFFFFFFFFFE00FF, 0x24⟩ rfl rfl rfl rfl BitVec.and_zero (bitHalf_and_high _) rfl

theorem portUpdate : Statement (.portUpdate) :=
  of_fields ⟨.portUpdate, 0xFFFFFFFFFFFFFFFF, 0x25⟩ rfl rfl rfl rfl rfl rfl rfl

theorem portRead : Statement (.portRead) :=
  of_fields ⟨.portRead, 0xFFFFFFFFFFFFFFFF, 0x26⟩ rfl rfl rfl rfl rfl rfl rfl

theorem pinRead (pin : Byte) : Statement (.pinRead pin) :=
  of_fields ⟨.pinRead, 0xFFFFFFFFFFFF00FF, 0x27⟩ rfl rfl rfl rfl BitVec.and_zero rfl rfl

theorem pinReadFast (pin : Byte) : Statement (.pinReadFast pin) :=
  of_fields ⟨.pinReadFast, 0xFFFFFFFFFFFF00FF, 0x28⟩ rfl rfl rfl rfl BitVec.and_zero rfl rfl

theorem portPullup (value : Half) : Statement (.portPullup value) :=
  of_fields ⟨.portPullup, 0xFFFFFFFF0000FFFF, 0x29⟩ rfl rfl rfl rfl rfl BitVec.and_zero rfl

end Sys2Proof.Laws.EncodeAccepted
end

