-- ==== Sys2Proof/Tests/Slice0.lean ====
section
/-! SUPPORT. The model's own tests: expected values are those of spec/95_test_vectors.md (its section in each comment) or are
written out from the encoding rules. Then a witness for the hypotheses of each statement. -/

namespace Sys2Proof.Tests

open Sys2Proof.Machine Sys2Proof.Claims

/-- The state of 95_test_vectors.md sections 2.4 and 2.6: begun, opcodes 0x43 and 0x42, speed 0; the oracle's bytes given. -/
def begunState (oracle : List Byte) : State :=
  { State.reset with
    selectLine := 5, addressingEnabled := true, hardwareAddress := 1, readOpcode := 0x43, writeOpcode := 0x42
    configured := true, begun := true, oracle := oracle }

/-- That state with four bytes of no interest to come. -/
def begun : State := begunState [0xEE, 0xEE, 0xEE, 0xEE]

/-- After CONFIGURE 5, 0x21, 0, with seven bytes of no interest to come. -/
def configured : State :=
  { begunState [0xEE, 0xEE, 0xEE, 0xEE, 0xEE, 0xEE, 0xEE] with begun := false }

/-- The outcome is a next state that passes `p`. -/
def after (o : Host.Outcome State Fault Refusal) (p : State → Bool) : Bool :=
  match o with
  | .next t => p t
  | .fault _ => false
  | .refused _ => false

/-- The bytes sent. -/
def sentBytes (s : State) : List Byte :=
  s.history.filterMap fun
    | .xfer tx _ => some tx
    | .busInit _ | .selInit _ | .delay _ | .reserve _ | .sel _ _ | .release => none

/-- The outcome is `s` with this fault mark and nothing else changed. -/
def faults (o : Host.Outcome State Fault Refusal) (s : State) (kind : FaultKind) (w : CommandWord) : Bool :=
  after o fun t => t = marked s kind w

/-! ### Well-formedness: one ill-formed term for each check (30_encoding.md R74, R76) -/

theorem test_wf_code : (RawCommand.mk 0x15 0 0 0).wellFormed .regRead8 = false := by decide
theorem test_wf_a : (RawCommand.mk 0x02 1 0 0).wellFormed .setSpeed = false := by decide
theorem test_wf_a_high : (RawCommand.mk 0x03 2 0 0).wellFormed .beginInit = false := by decide
theorem test_wf_d : (RawCommand.mk 0x25 0 1 0).wellFormed .portUpdate = false := by decide
theorem test_wf_d_byte : (RawCommand.mk 0x12 0x0A 0x108 0).wellFormed .regWrite8 = false := by decide
theorem test_wf_d_bit : (RawCommand.mk 0x21 3 2 0).wellFormed .pinMode = false := by decide
theorem test_wf_s : (RawCommand.mk 0x11 0x0E 0 1).wellFormed .regRead16 = false := by decide
theorem test_wf_accepts : (RawCommand.mk 0x12 0x0A 0x08 0).wellFormed .regWrite8 = true := by decide

/-! ### Decoding: every row, words of 95_test_vectors.md section 2, and three written out bit by bit from R71 and R74 -/

-- S = 0, D = 5, A = 0x21, CMD = 0x01.
theorem test_decode_configure_bits :
    decode (0b00000000000000000000000000000000#32 ++ 0b0000000000000101#16 ++ 0b00100001#8 ++ 0b00000001#8)
      = .ok (.configure 5 0x21 0) := by decide
-- S = 0, D = 1, A = 3, CMD = 0x23.
theorem test_decode_pinWrite_bits :
    decode (0b00000000000000000000000000000000#32 ++ 0b0000000000000001#16 ++ 0b00000011#8 ++ 0b00100011#8)
      = .ok (.pinWrite 3 true) := by decide
-- S = 0, D = 0x00FF, A = 2, CMD = 0x14.
theorem test_decode_regWrite16_bits :
    decode (0b00000000000000000000000000000000#32 ++ 0b0000000011111111#16 ++ 0b00000010#8 ++ 0b00010100#8)
      = .ok (.regWrite16 0x02 0x00FF) := by decide
theorem test_decode_configure : decode 0x01312D0000021001 = .ok (.configure 2 0x10 20000000) := by decide
theorem test_decode_setSpeed : decode 0x0098967F00000002 = .ok (.setSpeed 9999999) := by decide
theorem test_decode_begin : decode 0x0000000000000103 = .ok (.beginInit true) := by decide
theorem test_decode_regRead8 : decode 0x000000000000FF10 = .ok (.regRead8 0xFF) := by decide
theorem test_decode_regRead16 : decode 0x0000000000001311 = .ok (.regRead16 0x13) := by decide
theorem test_decode_regWrite8 : decode 0x0000000000080A12 = .ok (.regWrite8 0x0A 0x08) := by decide
theorem test_decode_regWrite8Both : decode 0x0000000000AA0C13 = .ok (.regWrite8Both 0x0C 0xAA) := by decide
theorem test_decode_regWrite16 : decode 0x00000000FFFF0E14 = .ok (.regWrite16 0x0E 0xFFFF) := by decide
theorem test_decode_portMode : decode 0x0000000000F00020 = .ok (.portMode 0x00F0) := by decide
theorem test_decode_pinMode : decode 0x000000000000FF21 = .ok (.pinMode 255 false) := by decide
theorem test_decode_portWrite : decode 0x00000000FFFE0022 = .ok (.portWrite 0xFFFE) := by decide
theorem test_decode_pinWrite : decode 0x0000000000011023 = .ok (.pinWrite 16 true) := by decide
theorem test_decode_pinWriteFast : decode 0x0000000000010F24 = .ok (.pinWriteFast 15 true) := by decide
theorem test_decode_portUpdate : decode 0x0000000000000025 = .ok .portUpdate := by decide
theorem test_decode_portRead : decode 0x0000000000000026 = .ok .portRead := by decide
theorem test_decode_pinRead : decode 0x0000000000000F27 = .ok (.pinRead 15) := by decide
theorem test_decode_pinReadFast : decode 0x000000000000C828 = .ok (.pinReadFast 200) := by decide
theorem test_decode_portPullup : decode 0x0000000000010029 = .ok (.portPullup 1) := by decide

/-- Section 2.7: unassigned codes. -/
theorem test_decode_illegal :
    decode 0x0000000000000000 = .error .illegalCommand ∧ decode 0x0000000000000015 = .error .illegalCommand
      ∧ decode 0x00000000000000FF = .error .illegalCommand := by decide
/-- Sections 2.2 to 2.6: reserved fields. -/
theorem test_decode_reserved :
    decode 0x0000000000000102 = .error .reservedField ∧ decode 0x0000000000000203 = .error .reservedField
      ∧ decode 0x0000000001080A12 = .error .reservedField ∧ decode 0x0000000100000E11 = .error .reservedField
      ∧ decode 0x0000000000000120 = .error .reservedField ∧ decode 0x0000000000020321 = .error .reservedField
      ∧ decode 0x0000000000010025 = .error .reservedField := by decide
/-- Words of sections 2.1 to 2.6. -/
theorem test_encode :
    encode (.configure 5 0x21 0) = 0x0000000000052101 ∧ encode (.setSpeed 20000000) = 0x01312D0000000002
      ∧ encode (.regWrite8Both 0x0C 0xAA) = 0x0000000000AA0C13 ∧ encode (.pinWriteFast 255 true) = 0x000000000001FF24
      ∧ encode (.portPullup 0x00F0) = 0x0000000000F00029 := by decide
/-- The table's fixed bits of CONFIGURE end at bit 7 and those of SET_SPEED at bit 31: the bits above are 0. -/
theorem test_decodeTableWord :
    decodeTableWord 8 0x01 = some (.configure 0 0 0) ∧ decodeTableWord 32 0x02 = some (.setSpeed 0)
      ∧ decodeTableWord 64 0x0F28 = some (.pinReadFast 15) ∧ decodeTableWord 64 0x00 = none := by decide
/-- Section 3 and section 2.6: lines and the words they stand for. -/
theorem test_assemble :
    assemble Config.specDefault (.command .configure) [.number 5, .number 0x21, .number 0] = some 0x0000000000052101
      ∧ assemble Config.specDefault (.command .pinMode) [.number 3, .dirOut] = some 0x0000000000000321
      ∧ assemble Config.specDefault (.command .regRead16) [.register .intf] = some 0x0000000000000E11
      ∧ assemble Config.specDefault .pinHigh [.number 3] = some 0x0000000000010323
      ∧ assemble Config.specDefault .portAllHigh [] = some 0x0000000000010022
      ∧ assemble Config.specDefault .flush [] = some 0x0000000000000025 := by decide

/-! ### One step each -/

/-- Section 2.1, code 0x21, and R100's example. -/
theorem test_configure :
    after (exec (.configure 5 0x21 0) State.reset) (fun t =>
      t.addressingEnabled ∧ t.hardwareAddress = 1 ∧ t.readOpcode = 0x43 ∧ t.writeOpcode = 0x42 ∧ t.selectLine = 5
        ∧ t.transactionSpeed = 0 ∧ t.configured ∧ t.history = []) = true := by decide
/-- Section 2.1, codes 0x27, 0x28 and 0x07. -/
theorem test_configure_codes :
    after (exec (.configure 0 0x27 0) State.reset) (fun t => t.readOpcode = 0x4F ∧ t.writeOpcode = 0x4E ∧ t.hardwareAddress = 7)
      ∧ after (exec (.configure 0 0x28 0) State.reset) (fun t => t.readOpcode = 0x01 ∧ t.writeOpcode = 0x00 ∧ !t.addressingEnabled)
      ∧ after (exec (.configure 0 0x07 0) State.reset) (fun t => t.readOpcode = 0x01 ∧ t.hardwareAddress = 0) := by decide
/-- Section 2.2. -/
theorem test_setSpeed :
    after (exec (.setSpeed 9999999) State.reset) (fun t => t.transactionSpeed = 9999999)
      ∧ after (exec (.setSpeed 0xFFFFFFFF) begun) (fun t => t.transactionSpeed = 10000000 ∧ t.history = []) := by decide
/-- Section 2.3, row 1. -/
theorem test_begin :
    after (exec (.beginInit false) configured) (fun t =>
      t.begun ∧ t.shadowDirection = 0xFFFF ∧ t.shadowOutput = 0 ∧ t.csLevel ∧ transactionCount t = 2
        ∧ t.history.take 3 = [.busInit none, .selInit 5, .delay none]
        ∧ sentBytes t = [0x42, 0x0A, 0x08, 0x42, 0x00, 0xFF, 0xFF]) = true := by decide
/-- Section 2.3, row 2: addressing off, speed 10 000 000, skip. -/
theorem test_begin_reserved :
    after (exec (.beginInit true) { configured with addressingEnabled := false, writeOpcode := 0, selectLine := 2,
                                                    transactionSpeed := 10000000 }) (fun t =>
      t.history.take 4 = [.selInit 2, .delay none, .reserve 10000000, .sel 2 false]
        ∧ sentBytes t = [0x00, 0x0A, 0x00, 0x00, 0x00, 0xFF, 0xFF] ∧ t.history.countP (· == .release) = 2
        ∧ !t.reservationHeld) = true := by decide
/-- Section 2.4, and the frame of R123's example. -/
theorem test_regRead8 :
    after (exec (.regRead8 0x0A) (begunState [1, 2, 0x08])) (fun t => t.result = 0x0008
      ∧ t.history = [.sel 5 false, .xfer 0x43 1, .xfer 0x0A 2, .xfer 0x00 0x08, .sel 5 true]) = true := by decide
/-- Section 2.4. -/
theorem test_regRead16 :
    after (exec (.regRead16 0x0E) (begunState [1, 2, 0x34, 0x12])) (fun t => t.result = 0x1234
      ∧ sentBytes t = [0x43, 0x0E, 0x00, 0x00]) = true := by decide
/-- Section 2.4, and a reservation at 4 000 000. -/
theorem test_regWrite8 :
    after (exec (.regWrite8 0x0A 0x08) { begun with transactionSpeed := 4000000 }) (fun t =>
      sentBytes t = [0x42, 0x0A, 0x08] ∧ t.history.take 2 = [.reserve 4000000, .sel 5 false]
        ∧ t.history.drop 5 = [.sel 5 true, .release] ∧ t.result = 0) = true := by decide
/-- Section 2.4. -/
theorem test_regWrite8Both :
    after (exec (.regWrite8Both 0x0C 0xAA) begun) (fun t => sentBytes t = [0x42, 0x0C, 0xAA, 0xAA]) = true := by decide
/-- Section 2.4: no sentinel decoding, no shadow. -/
theorem test_regWrite16 :
    after (exec (.regWrite16 0x00 0x0001) begun) (fun t => sentBytes t = [0x42, 0x00, 0x01, 0x00] ∧ t.shadowDirection = 0) = true := by
  decide
/-- Section 2.6. -/
theorem test_portMode :
    after (exec (.portMode 0x0001) begun) (fun t => t.shadowDirection = 0xFFFF ∧ sentBytes t = [0x42, 0x00, 0xFF, 0xFF]) = true := by
  decide
/-- Section 2.5, MODE_CONST. -/
theorem test_portMode_const :
    after (exec (.portMode 0x0000) { begun with params := { Config.specDefault with dirSentinelMode := .modeConst } })
      (fun t => t.shadowDirection = 0xFFFF) = true := by decide
/-- Section 2.6. -/
theorem test_pinMode :
    after (exec (.pinMode 3 false) { begun with shadowDirection := 0xFFFF }) (fun t =>
      t.shadowDirection = 0xFFF7 ∧ sentBytes t = [0x42, 0x00, 0xF7, 0xFF]) = true := by decide
/-- Section 2.6: pin 16 is a no-op. -/
theorem test_pinMode_16 : after (exec (.pinMode 16 false) begun) (fun t => t = begun) = true := by decide
/-- Section 2.6. -/
theorem test_portWrite :
    after (exec (.portWrite 0xFFFE) begun) (fun t => t.shadowOutput = 0xFFFE ∧ sentBytes t = [0x42, 0x12, 0xFE, 0xFF]) = true := by
  decide
/-- Section 2.6, the remark on `PORT_WRITE_REG = 0x14`. -/
theorem test_portWrite_olat :
    after (exec (.portWrite 0x0001) { begun with params := { Config.specDefault with portWriteReg := .olat } })
      (fun t => sentBytes t = [0x42, 0x14, 0xFF, 0xFF]) = true := by decide
/-- Section 1, S4. -/
theorem test_pinWrite :
    after (exec (.pinWrite 1 true) { begun with shadowOutput := 0x5555 }) (fun t =>
      t.shadowOutput = 0x5557 ∧ sentBytes t = [0x42, 0x12, 0x57, 0x55]) = true := by decide
/-- Section 2.6. -/
theorem test_pinWrite_15 :
    after (exec (.pinWrite 15 false) { begun with shadowOutput := 0x8000 }) (fun t => t.shadowOutput = 0x0000) = true := by
  decide
/-- Section 2.6. -/
theorem test_pinWriteFast :
    after (exec (.pinWriteFast 15 true) { begun with shadowOutput := 0x0001 }) (fun t =>
      t.shadowOutput = 0x8001 ∧ t.history = []) = true := by decide
/-- Section 2.6. -/
theorem test_portUpdate :
    after (exec .portUpdate { begun with shadowOutput := 0x8001 }) (fun t => sentBytes t = [0x42, 0x12, 0x01, 0x80]) = true := by
  decide
/-- Section 2.6. -/
theorem test_portRead :
    after (exec .portRead (begunState [1, 2, 0x10, 0x80])) (fun t => t.result = 0x8010 ∧ sentBytes t = [0x43, 0x12, 0x00, 0x00]) = true := by
  decide
/-- Section 2.6. -/
theorem test_pinRead :
    after (exec (.pinRead 4) (begunState [1, 2, 0x10, 0x00])) (fun t => t.result = 0x0001)
      ∧ after (exec (.pinRead 15) (begunState [1, 2, 0x00, 0x80])) (fun t => t.result = 0x0001) := by decide
/-- Section 2.6: pin 16 makes no transaction. -/
theorem test_pinRead_16 : after (exec (.pinRead 16) begun) (fun t => t.history = [] ∧ t.drawCount = 1) = true := by decide
/-- Section 2.6. -/
theorem test_pinReadFast :
    after (exec (.pinReadFast 15) { begun with shadowOutput := 0x8001 }) (fun t => t.result = 0x0001 ∧ t.history = [])
      ∧ after (exec (.pinReadFast 1) { begun with shadowOutput := 0x8001 }) (fun t => t.result = 0x0000) := by decide
/-- Section 2.6. -/
theorem test_portPullup :
    after (exec (.portPullup 0x0001) begun) (fun t => sentBytes t = [0x42, 0x0C, 0xFF, 0xFF] ∧ t.shadowOutput = 0) = true := by
  decide

/-- Section 2.7: faults from reset, the reserved field before the lifecycle. -/
theorem test_faults_at_reset :
    faults (step (State.reset.withFetchWord 64 0x10323)) State.reset .notBegun 0x10323
      ∧ faults (step (State.reset.withFetchWord 64 0x20323)) State.reset .reservedField 0x20323
      ∧ faults (step (State.reset.withFetchWord 64 0x03)) State.reset .notConfigured 0x03
      ∧ faults (step (State.reset.withFetchWord 64 0x15)) State.reset .illegalCommand 0x15 := by decide
/-- Section 2.7 and section 2.3: faults once begun. -/
theorem test_faults_begun :
    faults (step (begun.withFetchWord 64 0x52101)) begun .configAfterBegin 0x52101
      ∧ faults (step (begun.withFetchWord 64 0x03)) begun .doubleBegin 0x03 := by decide
/-- P4: the CONFIGURE has no step. -/
theorem test_faulted_takes_no_word :
    step ((marked State.reset .notBegun 0x10323).withFetchWord 64 0x52101) = .fault (.stopped ⟨.notBegun, 0x10323⟩) := rfl

/-! ### Witnesses: the hypotheses of each statement can be met, each clause by a value at its edge -/

theorem witness_EncodeOfDecode : decode 0x1234567800FF2701 = .ok (.configure 0x00FF 0x27 0x12345678) := by decide
theorem witness_AcceptedExactlyByMaskAndMatch :
    (OpcodeRow.mk .portUpdate 0xFFFFFFFFFFFFFFFF 0x25) ∈ opcodeTable
      ∧ State.reset.fault = none
      ∧ cmdField 0x0100000000000025 = Command.portUpdate.assignedCode
      ∧ (rawCommand 0x0100000000000025).mustBeZero .portUpdate = false := by decide
theorem witness_DecodeFaults_unassigned :
    Unassigned 0x00 ∧ Unassigned 0x04 ∧ Unassigned 0x0F ∧ Unassigned 0x15 ∧ Unassigned 0x1F ∧ Unassigned 0x2A ∧ Unassigned 0xFF
      ∧ cmdField 0x2A = 0x2A ∧ State.reset.fault = none := by unfold Unassigned; decide
theorem witness_DecodeFaults_assigned :
    ¬ Unassigned 0x01 ∧ ¬ Unassigned 0x03 ∧ ¬ Unassigned 0x10 ∧ ¬ Unassigned 0x14 ∧ ¬ Unassigned 0x20 ∧ ¬ Unassigned 0x29
      ∧ cmdField 0x0129 = Command.portPullup.assignedCode ∧ (rawCommand 0x0129).mustBeZero .portPullup = false := by
  unfold Unassigned; decide
theorem witness_DecodeFaults_decodes :
    ∀ c : Command, cmdField 0x29 = c.assignedCode → (rawCommand 0x29).mustBeZero c = true := by
  intro c h; cases c <;> rfl
theorem witness_StepRunsDecodedCommand :
    (begun.withFetchWord 64 0x25).fault = none ∧ (begun.withFetchWord 64 0x25).hostMoves = [.command 0x25]
      ∧ decode 0x25 = .ok .portUpdate := by decide
theorem witness_MarkedBlockTakesNoCommand :
    ((marked begun .doubleBegin 3).withFetchWord 64 0x25).fault = some ⟨.doubleBegin, 3⟩
      ∧ ((marked begun .doubleBegin 3).withFetchWord 64 0x25).hostMoves = [.command 0x25] := by decide
theorem witness_BlockWaitsForHost : State.reset.hostMoves = [] := by decide
theorem witness_FaultMarkIsSticky :
    (marked begun .doubleBegin 3).fault = some ⟨.doubleBegin, 3⟩
      ∧ step (marked begun .doubleBegin 3) = .next (marked begun .doubleBegin 3) := ⟨rfl, rfl⟩
theorem witness_FaultHasNoPartialEffect :
    (begun.withFetchWord 64 0x03).fault = none
      ∧ step (begun.withFetchWord 64 0x03) = .next (marked begun .doubleBegin 3)
      ∧ (marked begun .doubleBegin 3).fault ≠ none := ⟨rfl, rfl, by decide⟩
theorem witness_LifecycleFaults :
    (Instr.configure 0 0 0).command = .configure ∧ begun.begun = true ∧ (Instr.beginInit false).command = .beginInit
      ∧ State.reset.configured = false ∧ begun.configured = true ∧ configured.configured = true ∧ configured.begun = false
      ∧ (Instr.portRead).command ≠ .configure ∧ (Instr.portRead).command ≠ .setSpeed ∧ (Instr.portRead).command ≠ .beginInit
      ∧ State.reset.begun = false ∧ (Instr.setSpeed 1).command = .setSpeed
      ∧ decode 0x01 = .ok (.configure 0 0 0) ∧ decode 0x03 = .ok (.beginInit false) ∧ decode 0x26 = .ok .portRead := by decide
theorem witness_HostResetRestores :
    ({ marked begun .doubleBegin 3 with hostMoves := [.reset] } : State).hostMoves = .reset :: [] := rfl
theorem witness_ConfigureSetsConfiguration :
    cmdField 0x52101 = 0x01 ∧ begun.begun = true ∧ State.reset.begun = false := by decide
theorem witness_OpcodeBytesLayout :
    State.reset.begun = false
      ∧ after (exec (.configure 0 0x20 0) State.reset) (fun t => t.addressingEnabled)
      ∧ after (exec (.configure 0 0x1F 0) State.reset) (fun t => !t.addressingEnabled) := by decide
theorem witness_LastConfigureWins : State.reset.begun = false := by decide
theorem witness_SetSpeedClamps :
    cmdField 0x0000000100000002 = 0x02 ∧ aField 0x02 = 0 ∧ dField 0x02 = 0 ∧ aField 0x0102 ≠ 0
      ∧ begun.transactionSpeed = 0 ∧ exec (.pinWriteFast 0 false) begun = .next begun ∧ State.reset.begun = false :=
  ⟨by decide, by decide, by decide, by decide, by decide, rfl, by decide⟩
theorem witness_BeginInitialises :
    cmdField 0x0103 = 0x03 ∧ (aField 0x0103).extractLsb' 1 7 = 0 ∧ (aField 0x0203).extractLsb' 1 7 ≠ 0
      ∧ State.reset.configured = false ∧ (begun.configured = true ∧ begun.begun = true)
      ∧ (configured.configured = true ∧ configured.begun = false) := by decide
theorem witness_BeginIgnoresOldShadows : configured.configured = true ∧ configured.begun = false := by decide
theorem witness_RegRead8ReadsOneByte :
    cmdField 0x0A10 = 0x10 ∧ dField 0x0A10 = 0 ∧ sField 0x0A10 = 0 ∧ dField 0x10A10 ≠ 0
      ∧ State.reset.begun = false ∧ begun.begun = true := by decide
theorem witness_RegRead16ReadsLowThenHigh :
    cmdField 0x0E11 = 0x11 ∧ dField 0x0E11 = 0 ∧ sField 0x0E11 = 0 ∧ dField 0x10E11 ≠ 0
      ∧ State.reset.begun = false ∧ begun.begun = true := by decide
theorem witness_RegWrite8SendsOneByte :
    cmdField 0xFF0A12 = 0x12 ∧ (dField 0xFF0A12).extractLsb' 8 8 = 0 ∧ sField 0xFF0A12 = 0
      ∧ (dField 0x1000A12).extractLsb' 8 8 ≠ 0 ∧ State.reset.begun = false ∧ begun.begun = true := by decide
theorem witness_RegWrite8BothSendsByteTwice :
    cmdField 0xFF0A13 = 0x13 ∧ (dField 0xFF0A13).extractLsb' 8 8 = 0 ∧ sField 0xFF0A13 = 0
      ∧ (dField 0x1000A13).extractLsb' 8 8 ≠ 0 ∧ State.reset.begun = false ∧ begun.begun = true := by decide
theorem witness_RegWrite16SendsLowThenHigh :
    cmdField 0xFFFF0214 = 0x14 ∧ sField 0xFFFF0214 = 0 ∧ sField 0x1FFFF0214 ≠ 0
      ∧ State.reset.begun = false ∧ begun.begun = true := by decide
theorem witness_RegisterWritesLeaveShadows :
    (Instr.regWrite16 0x00 0x1234).command = .regWrite16
      ∧ after (exec (.regWrite16 0x00 0x1234) begun) (fun t => t.history ≠ []) := by decide
theorem witness_ScriptedBytesAreRead :
    (begunState [1, 2, 3, 4]).begun = true ∧ (begunState [1, 2, 3, 4]).oracle = 1 :: 2 :: 3 :: 4 :: [] := by decide
theorem witness_LevelSentinelsAreExact :
    (0x0001 : Half) = Config.specDefault.sentHigh
      ∧ ((0x0000 : Half) ≠ Config.specDefault.sentHigh ∧ (0x0000 : Half) = Config.specDefault.sentLow)
      ∧ ((0x0002 : Half) ≠ Config.specDefault.sentHigh ∧ (0x0002 : Half) ≠ Config.specDefault.sentLow) := by decide
theorem witness_PortModeWritesDirection :
    cmdField 0xF00020 = 0x20 ∧ aField 0xF00020 = 0 ∧ sField 0xF00020 = 0 ∧ aField 0x0120 ≠ 0
      ∧ State.reset.begun = false ∧ begun.begun = true ∧ begun.params.dirSentinelMode = .level
      ∧ ({ begun with params := { Config.specDefault with dirSentinelMode := .modeConst } } : State).params.dirSentinelMode
          = .modeConst := by decide
theorem witness_PinModeWritesOneLane :
    cmdField 0x10321 = 0x21 ∧ (dField 0x10321).extractLsb' 1 15 = 0 ∧ sField 0x10321 = 0
      ∧ (dField 0x20321).extractLsb' 1 15 ≠ 0 ∧ State.reset.begun = false ∧ begun.begun = true
      ∧ 15 < (16 : Byte).toNat ∧ 15 < (255 : Byte).toNat ∧ (15 : Byte).toNat ≤ 15 ∧ (0 : Byte).toNat ≤ 15 := by decide
theorem witness_PortWriteWritesOutput :
    cmdField 0xFFFE0022 = 0x22 ∧ aField 0xFFFE0022 = 0 ∧ sField 0xFFFE0022 = 0 ∧ aField 0x0122 ≠ 0
      ∧ State.reset.begun = false ∧ begun.begun = true := by decide
theorem witness_PinWriteWritesOneLane :
    cmdField 0x10323 = 0x23 ∧ (dField 0x10323).extractLsb' 1 15 = 0 ∧ sField 0x10323 = 0
      ∧ (dField 0x20323).extractLsb' 1 15 ≠ 0 ∧ State.reset.begun = false ∧ begun.begun = true
      ∧ 15 < (16 : Byte).toNat ∧ (15 : Byte).toNat ≤ 15 := by decide
theorem witness_PinWriteFastTouchesShadowOnly :
    cmdField 0x10F24 = 0x24 ∧ (dField 0x10F24).extractLsb' 1 15 = 0 ∧ sField 0x10F24 = 0
      ∧ (dField 0x20F24).extractLsb' 1 15 ≠ 0 ∧ State.reset.begun = false ∧ begun.begun = true
      ∧ 15 < (16 : Byte).toNat ∧ (15 : Byte).toNat ≤ 15 := by decide
theorem witness_PortUpdateFlushesOutput :
    cmdField 0x25 = 0x25 ∧ aField 0x25 = 0 ∧ dField 0x25 = 0 ∧ sField 0x25 = 0 ∧ dField 0x10025 ≠ 0
      ∧ State.reset.begun = false ∧ begun.begun = true := by decide
theorem witness_PortReadReadsGpio :
    cmdField 0x26 = 0x26 ∧ aField 0x26 = 0 ∧ dField 0x26 = 0 ∧ sField 0x26 = 0 ∧ aField 0x126 ≠ 0
      ∧ State.reset.begun = false ∧ begun.begun = true := by decide
theorem witness_PinReadReadsOnePin :
    cmdField 0x1027 = 0x27 ∧ dField 0x1027 = 0 ∧ sField 0x1027 = 0 ∧ dField 0x10027 ≠ 0
      ∧ State.reset.begun = false ∧ begun.begun = true ∧ 15 < (16 : Byte).toNat ∧ (15 : Byte).toNat ≤ 15 := by decide
theorem witness_PinReadFastReadsShadow :
    cmdField 0xC828 = 0x28 ∧ dField 0xC828 = 0 ∧ sField 0xC828 = 0 ∧ dField 0x10028 ≠ 0
      ∧ State.reset.begun = false ∧ begun.begun = true ∧ 15 < (200 : Byte).toNat ∧ (15 : Byte).toNat ≤ 15 := by decide
theorem witness_PortPullupWritesPullup :
    cmdField 0xF00029 = 0x29 ∧ aField 0xF00029 = 0 ∧ sField 0xF00029 = 0 ∧ aField 0x0129 ≠ 0
      ∧ State.reset.begun = false ∧ begun.begun = true := by decide
theorem witness_WrittenValueEqualsShadow :
    begun.begun = true ∧ (Instr.portMode 0x00F0).command = .portMode ∧ (Instr.portWrite 0x00F0).command = .portWrite
      ∧ (15 : Byte).toNat ≤ 15 ∧ 14 ≠ (15 : Byte).toNat
      ∧ after (exec (.portMode 0x00F0) begun) (fun t => t.shadowDirection = 0x00F0)
      ∧ after (exec (.pinWrite 15 true) begun) (fun t => t.shadowOutput = 0x8000) := by decide
theorem witness_FastWriteThenFastRead : begun.begun = true ∧ (15 : Byte).toNat ≤ 15 := by decide
theorem witness_PinWriteIsFastWriteThenUpdate : begun.begun = true ∧ (0 : Byte).toNat ≤ 15 := by decide
theorem witness_FieldsWrittenOnlyByNamedCommands :
    exec (.pinWriteFast 0 false) begun = .next begun ∧ (Instr.pinWriteFast 0 false).command ≠ .configure
      ∧ (Instr.pinWriteFast 0 false).command ≠ .beginInit
      ∧ (Instr.pinWriteFast 0 false).command ∈ [.configure, .setSpeed, .pinWriteFast, .pinReadFast]
      ∧ (Instr.pinWriteFast 0 false).command ∉ [.beginInit, .portMode, .pinMode]
      ∧ (Instr.portUpdate).command ∉ [.beginInit, .portWrite, .pinWrite, .pinWriteFast] := ⟨rfl, by decide⟩
theorem witness_HistoryOnlyGrows : exec (.pinWriteFast 0 false) begun = .next begun := rfl
theorem witness_TransactionsPerCommand :
    lifecycleCheck (.beginInit true) configured = none
      ∧ after (exec (.beginInit true) configured) (fun t => transactionCount t = 2) := by decide
theorem witness_SelectionAndOpcodesConstantAfterBegin : begun.begun = true ∧ step begun = .next begun := ⟨rfl, rfl⟩
/-- The state of these tests meets every invariant, and a step from it with a command to take answers a next state. -/
theorem witness_EveryStepKeepsInvariant :
    Inv begun ∧ ∃ t, step (begun.withFetchWord 64 0x25) = .next t :=
  ⟨⟨by unfold opcodesAgree; decide, by unfold speedLegal; decide, by unfold busAtRest; decide,
    ⟨by decide, fun h => absurd h (by decide)⟩, rfl⟩, _, rfl⟩
theorem witness_EveryStepKeepsOpcodesAgreeing : opcodesAgree begun ∧ step begun = .next begun :=
  ⟨witness_EveryStepKeepsInvariant.1.1, rfl⟩
theorem witness_EveryStepKeepsSpeedLegal : speedLegal begun ∧ step begun = .next begun :=
  ⟨witness_EveryStepKeepsInvariant.1.2.1, rfl⟩
theorem witness_EveryStepLeavesBusAtRest : busAtRest begun ∧ step begun = .next begun :=
  ⟨witness_EveryStepKeepsInvariant.1.2.2.1, rfl⟩
theorem witness_EveryStepKeepsLifecycleOrder : lifecycleOrdered begun ∧ step begun = .next begun :=
  ⟨witness_EveryStepKeepsInvariant.1.2.2.2.1, rfl⟩
theorem witness_EveryStepKeepsHistoryFramed :
    lifecycleOrdered begun ∧ wellFramed begun ∧ ∃ t, step (begun.withFetchWord 64 0x25) = .next t :=
  ⟨witness_EveryStepKeepsInvariant.1.2.2.2.1, witness_EveryStepKeepsInvariant.1.2.2.2.2, _, rfl⟩
theorem witness_AssemblerLinesStandForWords :
    (AsmOperand.number 255 = .number (255 : Byte).toNat)
      ∧ ∃ r : RegName, AsmOperand.register .intcap = .register r ∧ (0x10 : Byte) = registerAddress r :=
  ⟨by decide, .intcap, rfl, by decide⟩

end Sys2Proof.Tests
end

section
/-! Sentinel decoding (00_scope.md R13): one equation per branch of `decodeLevel`. -/
namespace Sys2Proof.Proofs
open Sys2Proof.Machine

/-- The high sentinel is compared first, so this needs no hypothesis about the low one. -/
@[simp] theorem decodeLevel_sentHigh (p : Config.Params) : decodeLevel p p.sentHigh = 0xFFFF :=
  if_pos rfl

theorem decodeLevel_sentLow {p : Config.Params} (hdistinct : p.sentLow ≠ p.sentHigh) :
    decodeLevel p p.sentLow = 0x0000 :=
  (if_neg hdistinct).trans (if_pos rfl)

/-- Any other value is an explicit mask. -/
theorem decodeLevel_of_ne_sentinels {p : Config.Params} {v : Half} (hhigh : v ≠ p.sentHigh) (hlow : v ≠ p.sentLow) :
    decodeLevel p v = v :=
  (if_neg hhigh).trans (if_neg hlow)

/-- Settles O27, one clause for each branch of `decodeLevel`. -/
theorem levelSentinelsAreExact : Obligations.LevelSentinelsAreExact := by
  intro p v
  refine ⟨?high, ?low, ?mask⟩
  case high =>
    rintro rfl
    exact decodeLevel_sentHigh p
  case low =>
    rintro hhigh rfl
    exact decodeLevel_sentLow hhigh
  case mask => exact decodeLevel_of_ne_sentinels

end Sys2Proof.Proofs
end

section
/-! The register map (10_state.md R30): the width and the read-only mark of a register, by its name. -/
namespace Sys2Proof.Proofs
open Sys2Proof.Machine

/-- The control register is the only one of a single byte. -/
theorem registerWidth_eq_ite (r : RegName) : registerWidth r = if r = .ctrl then 8 else 16 := by
  cases r <;> rfl

/-- The read-only registers are the interrupt flags and the interrupt capture. -/
theorem registerReadOnly_iff (r : RegName) : registerReadOnly r = true ↔ r = .intf ∨ r = .intcap := by
  cases r <;> simp [registerReadOnly]

/-- Settles O56: each address is read off the table, and the widths and marks hold register by register. -/
theorem registerMapAddresses : Obligations.RegisterMapAddresses := by
  refine ⟨?addresses, ?widths, ?marks⟩
  case addresses => exact ⟨rfl, rfl, rfl, rfl, rfl, rfl, rfl, rfl, rfl, rfl, rfl⟩
  case widths => exact registerWidth_eq_ite
  case marks => exact registerReadOnly_iff

end Sys2Proof.Proofs
end

section
/-! Masks and must-be-0 fields (30_encoding.md R74, R76): the mask of a row of opcode_table.json keeps the code and exactly
the bits of the column "must be 0", so that the row accepts a word exactly when the word's fields spell the row's command. -/
namespace Sys2Proof.Proofs

/-- A mask of the bits from `k` on keeps nothing of `x` exactly when the field above `k` is 0. -/
theorem and_high_eq_zero_iff {n : Nat} (x : BitVec n) (k : Nat) :
    x &&& BitVec.allOnes n <<< k = 0 ↔ x.extractLsb' k (n - k) = 0 := by
  constructor <;> intro h <;> ext i hi
  · have hbit := congrArg (BitVec.getLsbD · (k + i)) h
    simpa [show k + i < n by omega] using hbit
  · by_cases hk : i < k
    · simp [hk]
    · have hbit := congrArg (BitVec.getLsbD · (i - k)) h
      have hx : x[i] = false := by
        simpa [show i - k < n - k by omega, show k + (i - k) = i by omega, hi] using hbit
      simp [hx]

/-! Each entry of the column "must be 0" (R74) is a mask on one field. -/

theorem aZero_iff_and (r : RawCommand) : r.aZero = true ↔ r.a &&& 0xFF = 0 :=
  beq_iff_eq.trans (by rw [show r.a &&& 0xFF = r.a from BitVec.and_allOnes])

theorem aHighZero_iff_and (r : RawCommand) : r.aHighZero = true ↔ r.a &&& 0xFE = 0 :=
  beq_iff_eq.trans (and_high_eq_zero_iff r.a 1).symm

theorem dZero_iff_and (r : RawCommand) : r.dZero = true ↔ r.d &&& 0xFFFF = 0 :=
  beq_iff_eq.trans (by rw [show r.d &&& 0xFFFF = r.d from BitVec.and_allOnes])

theorem dByteZero_iff_and (r : RawCommand) : r.dByteZero = true ↔ r.d &&& 0xFF00 = 0 :=
  beq_iff_eq.trans (and_high_eq_zero_iff r.d 8).symm

theorem dBitZero_iff_and (r : RawCommand) : r.dBitZero = true ↔ r.d &&& 0xFFFE = 0 :=
  beq_iff_eq.trans (and_high_eq_zero_iff r.d 1).symm

theorem sZero_iff_and (r : RawCommand) : r.sZero = true ↔ r.s &&& 0xFFFFFFFF = 0 :=
  beq_iff_eq.trans (by rw [show r.s &&& 0xFFFFFFFF = r.s from BitVec.and_allOnes])

/-- The fields of a row's mask are the column "must be 0" of the row's command, row by row. -/
theorem mustBeZero_iff_mask {row : OpcodeRow} (hrow : row ∈ opcodeTable) (r : RawCommand) :
    r.mustBeZero row.command = true ↔
      r.a &&& aField row.mask = 0 ∧ r.d &&& dField row.mask = 0 ∧ r.s &&& sField row.mask = 0 := by
  fin_cases hrow <;>
    simp [RawCommand.mustBeZero, aZero_iff_and, aHighZero_iff_and, dZero_iff_and, dByteZero_iff_and,
      dBitZero_iff_and, sZero_iff_and, aField, dField, sField, and_assoc]

/-- A row's mask keeps the whole code. -/
theorem cmdField_mask : ∀ row ∈ opcodeTable, cmdField row.mask = 0xFF := by decide

/-- A row's match is the code of the row's command and nothing else. -/
theorem fields_pattern : ∀ row ∈ opcodeTable, cmdField row.pattern = row.command.assignedCode
    ∧ aField row.pattern = 0 ∧ dField row.pattern = 0 ∧ sField row.pattern = 0 := by decide

/-- Masking a word gives `p` exactly when masking each of its four fields gives that field of `p` (R71). -/
theorem word_and_eq_iff {w m p : CommandWord} :
    w &&& m = p ↔ cmdField w &&& cmdField m = cmdField p ∧ aField w &&& aField m = aField p
      ∧ dField w &&& dField m = dField p ∧ sField w &&& sField m = sField p := by
  constructor
  · rintro rfl
    simp
  · rintro ⟨hc, ha, hd, hs⟩
    exact word_ext (by simpa using hc) (by simpa using ha) (by simpa using hd) (by simpa using hs)

/-- A row accepts a word exactly when the word has the row's code and its must-be-0 fields are 0. -/
theorem row_accepts_iff {row : OpcodeRow} (hrow : row ∈ opcodeTable) (w : CommandWord) :
    w &&& row.mask = row.pattern ↔
      cmdField w = row.command.assignedCode ∧ (rawCommand w).mustBeZero row.command = true := by
  obtain ⟨hc, ha, hd, hs⟩ := fields_pattern row hrow
  have hcode : cmdField w &&& 0xFF = cmdField w := BitVec.and_allOnes
  rw [word_and_eq_iff, mustBeZero_iff_mask hrow, cmdField_mask row hrow, hcode, hc, ha, hd, hs]
  rfl

end Sys2Proof.Proofs
end

section
/-! What `decode` answers, by the code of the word (30_encoding.md R75, R76). -/
namespace Sys2Proof.Proofs
open Sys2Proof.Claims

@[simp] theorem operandsOf_command (w : CommandWord) (c : Command) : (operandsOf w c).command = c := by
  cases c <;> rfl

/-- The code of a row's command finds that row. -/
theorem lookupRow_assignedCode : ∀ row ∈ opcodeTable, lookupRow row.command.assignedCode = some row := by decide

/-- Every command has a row. -/
theorem exists_row (c : Command) : ∃ row ∈ opcodeTable, row.command = c := by
  cases c <;> decide

/-- The codes of the table's rows, in order. -/
theorem opcodeTable_codes : opcodeTable.map (fun row => cmdField row.pattern) =
    [0x01, 0x02, 0x03, 0x10, 0x11, 0x12, 0x13, 0x14, 0x20, 0x21, 0x22, 0x23, 0x24, 0x25, 0x26, 0x27, 0x28, 0x29] := rfl

/-- The codes that find no row are those R75 lists. -/
theorem lookupRow_eq_none_iff (code : Byte) : lookupRow code = none ↔ Unassigned code := by
  have hnone : lookupRow code = none ↔ code ∉ opcodeTable.map (fun row => cmdField row.pattern) := by
    simp [lookupRow]
  simp only [hnone, opcodeTable_codes, List.mem_cons, List.not_mem_nil, or_false, Unassigned]
  bv_omega

theorem decode_of_unassigned {w : CommandWord} (h : Unassigned (cmdField w)) : decode w = .error .illegalCommand := by
  simp only [decode, (lookupRow_eq_none_iff _).mpr h]

/-- A word of an assigned code decodes exactly when its must-be-0 fields are 0. -/
theorem decode_of_assignedCode {w : CommandWord} {c : Command} (h : cmdField w = c.assignedCode) :
    decode w = if (rawCommand w).mustBeZero c then .ok (operandsOf w c) else .error .reservedField := by
  obtain ⟨row, hrow, rfl⟩ := exists_row c
  simp only [decode, h, lookupRow_assignedCode row hrow, row_accepts_iff hrow, true_and]

/-- A code that R75 does not list is the code of a command. -/
theorem exists_assignedCode {code : Byte} (h : ¬ Unassigned code) : ∃ c : Command, code = c.assignedCode := by
  obtain ⟨row, hrow⟩ := Option.ne_none_iff_exists'.mp (mt (lookupRow_eq_none_iff code).mp h)
  obtain ⟨hcode, -⟩ := fields_pattern row (lookupRow_mem hrow)
  exact ⟨row.command, (lookupRow_code hrow).symm.trans hcode⟩

/-- A word decodes to the command of a row exactly when the row accepts it. -/
theorem decodes_to_row_iff {row : OpcodeRow} (hrow : row ∈ opcodeTable) (w : CommandWord) :
    (∃ i, decode w = .ok i ∧ i.command = row.command) ↔ w &&& row.mask = row.pattern := by
  constructor
  · rintro ⟨i, hdecode, hcommand⟩
    obtain ⟨found, hfound, haccepts, rfl⟩ := decode_ok hdecode
    rw [operandsOf_command] at hcommand
    have hrows : found = row := Option.some.inj <|
      (lookupRow_assignedCode found (lookupRow_mem hfound)).symm.trans (hcommand ▸ lookupRow_assignedCode row hrow)
    exact hrows ▸ haccepts
  · intro haccepts
    obtain ⟨hcode, hzero⟩ := (row_accepts_iff hrow w).mp haccepts
    exact ⟨operandsOf w row.command, by rw [decode_of_assignedCode hcode, if_pos hzero], operandsOf_command w _⟩

end Sys2Proof.Proofs
end

section
/-! The decode faults (60_exceptions.md R182): what the block does with a word that spells no command. -/
namespace Sys2Proof.Proofs
open Sys2Proof.Machine Sys2Proof.Claims

/-- A word that does not decode leaves the block as it was, marked with the fault of the error. -/
theorem runWord_of_decode_error {w : CommandWord} {s : State} {e : DecodeError} (hfault : s.fault = none)
    (h : decode w = .error e) : runWord w s = .next (marked s (decodeFaultKind e) w) := by
  simp only [runWord, hfault, h]
  rfl

theorem runWord_of_unassigned {w : CommandWord} {s : State} (hfault : s.fault = none)
    (h : Unassigned (cmdField w)) : runWord w s = .next (marked s .illegalCommand w) :=
  runWord_of_decode_error hfault (decode_of_unassigned h)

theorem runWord_of_reserved {w : CommandWord} {s : State} {c : Command} (hfault : s.fault = none)
    (hcode : cmdField w = c.assignedCode) (hzero : (rawCommand w).mustBeZero c = false) :
    runWord w s = .next (marked s .reservedField w) :=
  runWord_of_decode_error (e := .reservedField) hfault (by simp [decode_of_assignedCode hcode, hzero])

/-- Settles O4: the row's mask keeps the code and the must-be-0 fields, for the words it accepts and for the fault. -/
theorem acceptedExactlyByMaskAndMatch : Obligations.AcceptedExactlyByMaskAndMatch := by
  refine ⟨?accepted, ?reserved⟩
  case accepted =>
    intro row hrow w
    exact decodes_to_row_iff hrow w
  case reserved =>
    intro c w s hfault hcode hzero
    exact runWord_of_reserved hfault hcode hzero

/-- Settles O5: a code is unassigned or a command's, and a word of a command's code is judged by its must-be-0 fields. -/
theorem decodeFaults : Obligations.DecodeFaults := by
  intro w s hfault
  refine ⟨?unassigned, ?reserved, ?decodes⟩
  case unassigned => exact runWord_of_unassigned hfault
  case reserved =>
    intro c hcode hzero
    exact runWord_of_reserved hfault hcode hzero
  case decodes =>
    intro hassigned hzero
    obtain ⟨c, hcode⟩ := exists_assignedCode hassigned
    exact ⟨operandsOf w c, by rw [decode_of_assignedCode hcode, if_pos (hzero c hcode)]⟩

end Sys2Proof.Proofs
end

section
/-! The word of a command as the claims state it (30_encoding.md R74). -/
namespace Sys2Proof.Proofs
open Sys2Proof.Claims

/-- A command's code spells it, given what its must-be-0 column and its operands are over the fields of the word. -/
theorem codeSpells_of_command (c : Command) {reservedZero : CommandWord → Prop} {i : CommandWord → Instr}
    (hzero : ∀ w, (rawCommand w).mustBeZero c = true ↔ reservedZero w) (hoperands : ∀ w, operandsOf w c = i w) :
    CodeSpells c.assignedCode reservedZero i := by
  intro w hcode
  rw [decode_of_assignedCode hcode, hoperands]
  exact ⟨fun h => if_pos ((hzero w).mpr h), fun h => if_neg (mt (hzero w).mp h)⟩

end Sys2Proof.Proofs
end

section
/-! One frame (41_register_access.md R120): the state after it in the form of the claims, and its reservation. -/
namespace Sys2Proof.Proofs
open Sys2Proof.Machine Sys2Proof.Claims

/-- The state after a frame is the one the claims name, for some received bytes, one for each byte sent. -/
theorem afterFrame_eq_framed (s : State) (sent : List Byte) :
    ∃ rx oracle drawCount, rx.length = sent.length ∧ afterFrame s sent = framed s sent rx oracle drawCount := by
  refine ⟨received s sent, (afterFrame s sent).oracle, (afterFrame s sent).drawCount, rxBytes_length _ _ _, ?_⟩
  have hheld : (afterFrame s sent).reservationHeld = if s.transactionSpeed = 0 then s.reservationHeld else false := by
    by_cases hspeed : s.transactionSpeed = 0#32 <;> simp [hspeed]
  simp only [framed, ← hheld]
  rfl

/-- At speed 0 a frame takes no reservation. -/
theorem reserve_not_mem_frameEvents {s : State} (hspeed : s.transactionSpeed = 0) (sent : List Byte) (hz : Speed) :
    Event.reserve hz ∉ frameEvents s sent := by
  simp [frameEvents, hspeed, ← List.map_uncurry_zip_eq_zipWith]

/-- `t` has the history of `s`, followed by the events of one frame or by none. -/
def AtMostOneFrame (s t : State) : Prop :=
  t.history = s.history ∨ ∃ sent, t.history = s.history ++ frameEvents s sent

theorem atMostOneFrame_refl (s : State) : AtMostOneFrame s s := .inl rfl

theorem atMostOneFrame_afterFrame (s : State) (sent : List Byte) : AtMostOneFrame s (afterFrame s sent) :=
  .inr ⟨sent, rfl⟩

theorem atMostOneFrame_ite {c : Prop} [Decidable c] {s t u : State} (ht : AtMostOneFrame s t)
    (hu : AtMostOneFrame s u) : AtMostOneFrame s (if c then t else u) := by
  split
  · exact ht
  · exact hu

theorem atMostOneFrame_memRead8 (reg : Byte) (s : State) : AtMostOneFrame s (memRead8 reg s).2 :=
  memRead8_eq reg s ▸ atMostOneFrame_afterFrame s _

theorem atMostOneFrame_memRead16 (reg : Byte) (s : State) : AtMostOneFrame s (memRead16 reg s).2 :=
  memRead16_eq reg s ▸ atMostOneFrame_afterFrame s _

theorem atMostOneFrame_memWrite8 (reg b : Byte) (s : State) : AtMostOneFrame s (memWrite8 reg b s) :=
  memWrite8_eq reg b s ▸ atMostOneFrame_afterFrame s _

theorem atMostOneFrame_memWrite16 (reg : Byte) (v : Half) (s : State) : AtMostOneFrame s (memWrite16 reg v s) :=
  memWrite16_eq reg v s ▸ atMostOneFrame_afterFrame s _

theorem atMostOneFrame_memWritePair (reg b : Byte) (s : State) : AtMostOneFrame s (memWritePair reg b s) :=
  memWritePair_eq reg b s ▸ atMostOneFrame_afterFrame s _

/-- A frame's events do not depend on the shadows, so a shadow write before it may be left out of account. -/
theorem atMostOneFrame_writeDirection (v : Half) (s : State) : AtMostOneFrame s (writeDirection v s) :=
  atMostOneFrame_memWrite16 (registerAddress .dir) v { s with shadowDirection := v }

theorem atMostOneFrame_writeOutput (v : Half) (s : State) : AtMostOneFrame s (writeOutput v s) :=
  atMostOneFrame_memWrite16 (portWriteAddress s.params) v { s with shadowOutput := v }

/-- Every command but BEGIN makes one frame or none (20_memory.md R56, R58). -/
theorem atMostOneFrame_ruleOf {i : Instr} (hbegin : i.command ≠ .beginInit) (s : State) :
    AtMostOneFrame s (ruleOf i s) := by
  cases i with
  | configure sel code speed => exact .inl rfl
  | setSpeed hz => exact .inl rfl
  | beginInit skip => exact absurd rfl hbegin
  | regRead8 reg => exact atMostOneFrame_memRead8 reg s
  | regRead16 reg => exact atMostOneFrame_memRead16 reg s
  | regWrite8 reg data => exact atMostOneFrame_memWrite8 reg data s
  | regWrite8Both reg data => exact atMostOneFrame_memWritePair reg data s
  | regWrite16 reg value => exact atMostOneFrame_memWrite16 reg value s
  | portMode value => exact atMostOneFrame_writeDirection _ s
  | pinMode pin input => exact atMostOneFrame_ite (atMostOneFrame_writeDirection _ s) (atMostOneFrame_refl s)
  | portWrite value => exact atMostOneFrame_writeOutput _ s
  | pinWrite pin level => exact atMostOneFrame_ite (atMostOneFrame_writeOutput _ s) (atMostOneFrame_refl s)
  | pinWriteFast pin level => exact atMostOneFrame_ite (.inl rfl) (atMostOneFrame_refl s)
  | portUpdate => exact atMostOneFrame_memWrite16 _ _ s
  | portRead => exact atMostOneFrame_memRead16 _ s
  | pinRead pin => exact atMostOneFrame_ite (atMostOneFrame_memRead16 _ s) (.inl rfl)
  | pinReadFast pin => exact atMostOneFrame_ite (.inl rfl) (.inl rfl)
  | portPullup value => exact atMostOneFrame_memWrite16 _ _ s

end Sys2Proof.Proofs
end

section
/-! CONFIGURE (40_configuration.md R100 to R104): the lifecycle check and the fields it writes. -/
namespace Sys2Proof.Proofs
open Sys2Proof.Machine Sys2Proof.Claims

theorem exec_configure_of_begun {sel : Half} {code : Byte} {speed : Speed} {s : State} (hbegun : s.begun = true) :
    exec (.configure sel code speed) s = .next (marked s .configAfterBegin (pack 0x01 code sel speed)) :=
  exec_of_fault (if_pos hbegun)

theorem exec_configure_of_not_begun {sel : Half} {code : Byte} {speed : Speed} {s : State} (hbegun : s.begun = false) :
    exec (.configure sel code speed) s = .next (configureRule sel code speed s) :=
  exec_of_check (by simp [lifecycleCheck, hbegun])

/-- The clamp is the minimum of the two speeds. -/
theorem clampSpeed_eq_min (p : Config.Params) (hz : Speed) :
    clampSpeed p hz = BitVec.ofNat 32 (min hz.toNat p.maxSpeedHz.toNat) := by
  unfold clampSpeed
  split
  case isTrue hle => rw [min_eq_left hle, BitVec.ofNat_toNat, BitVec.setWidth_eq]
  case isFalse hlt => rw [min_eq_right (Nat.le_of_not_le hlt), BitVec.ofNat_toNat, BitVec.setWidth_eq]

/-- The fields CONFIGURE writes, with R101's range and R102's opcodes written out. -/
theorem configureRule_eq (sel : Half) (code : Byte) (speed : Speed) (s : State) :
    configureRule sel code speed s =
      { s with
        addressingEnabled := decide (0x20 ≤ code.toNat ∧ code.toNat ≤ 0x27)
        hardwareAddress := if 0x20 ≤ code.toNat ∧ code.toNat ≤ 0x27 then code.extractLsb' 0 3 else 0
        readOpcode := if 0x20 ≤ code.toNat ∧ code.toNat ≤ 0x27 then code <<< 1 ||| 0x01 else 0x01
        writeOpcode := if 0x20 ≤ code.toNat ∧ code.toNat ≤ 0x27 then code <<< 1 else 0x00
        selectLine := sel
        transactionSpeed := BitVec.ofNat 32 (min speed.toNat s.params.maxSpeedHz.toNat)
        configured := true } := by
  by_cases h : 0x20 ≤ code.toNat ∧ code.toNat ≤ 0x27
  · have hcode : validateCode code = (true, code.extractLsb' 0 3) := if_pos h
    simp [configureRule, hcode, opcodes, clampSpeed_eq_min, h]
  · have hcode : validateCode code = (false, 0) := if_neg h
    simp [configureRule, hcode, opcodes, clampSpeed_eq_min, h]

/-- R103: a second CONFIGURE overwrites every field the first one wrote. -/
theorem configureRule_configureRule (sel sel' : Half) (code code' : Byte) (speed speed' : Speed) (s : State) :
    configureRule sel' code' speed' (configureRule sel code speed s) = configureRule sel' code' speed' s := rfl

/-- Settles O14: CONFIGURE's word has no must-be-0 field, and its fault and fields go by whether BEGIN has run. -/
theorem configureSetsConfiguration : Obligations.ConfigureSetsConfiguration := by
  refine ⟨?word, fun sel code speed s => ⟨?fault, ?fields⟩⟩
  case word =>
    exact codeSpells_of_command .configure (fun w => by simp [RawCommand.mustBeZero]) (fun w => rfl)
  case fault => exact exec_configure_of_begun
  case fields =>
    intro hbegun
    rw [exec_configure_of_not_begun hbegun, configureRule_eq]

/-- Settles O16: CONFIGURE does not set `begun`, so the second one runs too, and it overwrites the first. -/
theorem lastConfigureWins : Obligations.LastConfigureWins := by
  intro sel sel' code code' speed speed' s hbegun
  refine ⟨configureRule sel code speed s, configureRule sel' code' speed' s, ?first, ?second, ?alone⟩
  case first => exact exec_configure_of_not_begun hbegun
  case second =>
    have hstill : (configureRule sel code speed s).begun = false := hbegun
    rw [exec_configure_of_not_begun hstill, configureRule_configureRule]
  case alone => exact exec_configure_of_not_begun hbegun

end Sys2Proof.Proofs
end

section
/-! BEGIN (40_configuration.md R106, R107): its two faults, and the prelude and the two frames it makes. -/
namespace Sys2Proof.Proofs
open Sys2Proof.Machine Sys2Proof.Claims

theorem exec_beginInit_of_not_configured {skip : Bool} {s : State} (hconfigured : s.configured = false) :
    exec (.beginInit skip) s = .next (marked s .notConfigured (pack 0x03 (if skip then 1 else 0) 0 0)) :=
  exec_of_fault (if_pos hconfigured)

theorem exec_beginInit_of_begun {skip : Bool} {s : State} (hconfigured : s.configured = true)
    (hbegun : s.begun = true) :
    exec (.beginInit skip) s = .next (marked s .doubleBegin (pack 0x03 (if skip then 1 else 0) 0 0)) :=
  exec_of_fault (i := .beginInit skip) (by simp [lifecycleCheck, hconfigured, hbegun])

theorem exec_beginInit_of_configured {skip : Bool} {s : State} (hconfigured : s.configured = true)
    (hbegun : s.begun = false) : exec (.beginInit skip) s = .next (beginRule skip s) :=
  exec_of_check (by simp [lifecycleCheck, hconfigured, hbegun])

/-- The prelude's events, in order, and the select line driven high. -/
theorem beginPrelude_eq (skip : Bool) (s : State) :
    beginPrelude skip s = { s with
      history := s.history ++ (if skip then [] else [.busInit s.params.busConfig])
        ++ [.selInit s.selectLine, .delay s.params.startupDelay]
      csLevel := true } := by
  cases skip <;> simp [beginPrelude, emit]

/-- The state after BEGIN's control frame and the shadow reset. -/
def beginAfterControl (skip : Bool) (s : State) : State :=
  { afterFrame (beginPrelude skip s) [s.writeOpcode, 0x0A, controlByte s.params s.addressingEnabled] with
    shadowDirection := 0xFFFF, shadowOutput := 0x0000 }

/-- BEGIN is the prelude, the control frame, the shadow reset and the direction frame; the reset shadow is its data. -/
theorem beginRule_eq (skip : Bool) (s : State) :
    beginRule skip s =
      { afterFrame (beginAfterControl skip s) [s.writeOpcode, 0x00, 0xFF, 0xFF] with begun := true } := by
  simp only [beginRule, memWrite8_eq, memWrite16_eq, beginAfterControl, beginPrelude_eq]
  rfl

/-- Settles O18: the must-be-0 fields of its word, its faults in R184's order, and its two frames. -/
theorem beginInitialises : Obligations.BeginInitialises := by
  refine ⟨?word, fun skip s => ⟨?notConfigured, ?doubleBegin, ?initialises⟩⟩
  case word =>
    exact codeSpells_of_command .beginInit
      (fun w => by simp [RawCommand.mustBeZero, RawCommand.aHighZero, RawCommand.dZero, RawCommand.sZero, rawCommand,
        and_assoc])
      (fun w => by simp [operandsOf, skipBit, aField])
  case notConfigured => exact exec_beginInit_of_not_configured
  case doubleBegin => exact exec_beginInit_of_begun
  case initialises =>
    intro hconfigured hbegun
    obtain ⟨rx₁, o₁, n₁, hlength₁, hcontrol⟩ := afterFrame_eq_framed (beginPrelude skip s)
      [s.writeOpcode, 0x0A, controlByte s.params s.addressingEnabled]
    obtain ⟨rx₂, o₂, n₂, hlength₂, hdirection⟩ := afterFrame_eq_framed (beginAfterControl skip s)
      [s.writeOpcode, 0x00, 0xFF, 0xFF]
    refine ⟨rx₁, o₁, n₁, rx₂, o₂, n₂, hlength₁, hlength₂, ?_⟩
    rw [exec_beginInit_of_configured hconfigured hbegun, beginRule_eq, hdirection, beginAfterControl, hcontrol,
      beginPrelude_eq]
    rfl

end Sys2Proof.Proofs
end

section
/-! SET_SPEED (40_configuration.md R104, R105), and what a speed of 0 means for the commands that run at it. -/
namespace Sys2Proof.Proofs
open Sys2Proof.Machine Sys2Proof.Claims

/-- SET_SPEED has no lifecycle fault. -/
theorem exec_setSpeed (hz : Speed) (s : State) : exec (.setSpeed hz) s = .next (setSpeedRule hz s) :=
  exec_of_check rfl

/-- R105: a CONFIGURE overwrites the speed that a SET_SPEED before it set. -/
theorem configureRule_setSpeedRule (hz : Speed) (sel : Half) (code : Byte) (speed : Speed) (s : State) :
    configureRule sel code speed (setSpeedRule hz s) = configureRule sel code speed s := rfl

/-- `t` has the history of `s`, followed by events none of which is a reservation. -/
def AppendsNoReserve (s t : State) : Prop :=
  ∃ events, t.history = s.history ++ events ∧ ∀ hz, Event.reserve hz ∉ events

theorem appendsNoReserve_of_history_eq {s t : State} (h : t.history = s.history) : AppendsNoReserve s t :=
  ⟨[], by simp [h], by simp⟩

theorem AppendsNoReserve.trans {s t u : State} (hst : AppendsNoReserve s t) (htu : AppendsNoReserve t u) :
    AppendsNoReserve s u := by
  obtain ⟨events, ht, hevents⟩ := hst
  obtain ⟨events', hu, hevents'⟩ := htu
  exact ⟨events ++ events', by rw [hu, ht, List.append_assoc], fun hz => by simp [hevents hz, hevents' hz]⟩

theorem AtMostOneFrame.appendsNoReserve {s t : State} (h : AtMostOneFrame s t) (hspeed : s.transactionSpeed = 0) :
    AppendsNoReserve s t := by
  obtain hnone | ⟨sent, hframe⟩ := h
  · exact appendsNoReserve_of_history_eq hnone
  · exact ⟨_, hframe, reserve_not_mem_frameEvents hspeed sent⟩

theorem appendsNoReserve_beginPrelude (skip : Bool) (s : State) : AppendsNoReserve s (beginPrelude skip s) := by
  rw [beginPrelude_eq]
  exact ⟨_, List.append_assoc _ _ _, by cases skip <;> simp⟩

/-- Neither the prelude nor the control frame changes the speed, so both frames of BEGIN run at speed 0. -/
theorem appendsNoReserve_beginRule {s : State} (skip : Bool) (hspeed : s.transactionSpeed = 0) :
    AppendsNoReserve s (beginRule skip s) := by
  have hprelude : (beginPrelude skip s).transactionSpeed = 0 := by rw [beginPrelude_eq]; exact hspeed
  have hcontrol : AppendsNoReserve (beginPrelude skip s) (beginAfterControl skip s) :=
    (atMostOneFrame_afterFrame _ _).appendsNoReserve hprelude
  have hdirection : AppendsNoReserve (beginAfterControl skip s) (beginRule skip s) := by
    rw [beginRule_eq]
    exact (atMostOneFrame_afterFrame _ _).appendsNoReserve (t := afterFrame _ _) hprelude
  exact ((appendsNoReserve_beginPrelude skip s).trans hcontrol).trans hdirection

/-- R105: a command that runs at speed 0 takes no reservation. -/
theorem exec_appendsNoReserve {i : Instr} {s t : State} (hspeed : s.transactionSpeed = 0) (h : exec i s = .next t) :
    AppendsNoReserve s t := by
  obtain ⟨kind, -, rfl⟩ | ⟨-, rfl⟩ := exec_cases h
  · exact appendsNoReserve_of_history_eq rfl
  · cases i with
    | beginInit skip => exact appendsNoReserve_beginRule skip hspeed
    | _ => exact (atMostOneFrame_ruleOf (by simp [Instr.command]) s).appendsNoReserve hspeed

/-- Settles O17: its word, the clamp as a minimum, no reservation at speed 0, and the CONFIGURE that overwrites it. -/
theorem setSpeedClamps : Obligations.SetSpeedClamps := by
  refine ⟨?word, ?clamp, ?noReserve, ?overwritten⟩
  case word =>
    exact codeSpells_of_command .setSpeed
      (fun w => by simp [RawCommand.mustBeZero, RawCommand.aZero, RawCommand.dZero, rawCommand]) (fun w => rfl)
  case clamp =>
    intro hz s
    rw [exec_setSpeed, setSpeedRule, clampSpeed_eq_min]
  case noReserve =>
    intro i s t hspeed h
    exact exec_appendsNoReserve hspeed h
  case overwritten =>
    intro hz sel code speed s hbegun
    refine ⟨setSpeedRule hz s, configureRule sel code speed s, exec_setSpeed hz s, ?after, ?alone⟩
    case after =>
      have hstill : (setSpeedRule hz s).begun = false := hbegun
      rw [exec_configure_of_not_begun hstill, configureRule_setSpeedRule]
    case alone => exact exec_configure_of_not_begun hbegun

end Sys2Proof.Proofs
end

section
/-! The commands that need BEGIN first (60_exceptions.md R184): every command but CONFIGURE, SET_SPEED and BEGIN. -/
namespace Sys2Proof.Proofs
open Sys2Proof.Machine

/-- The only lifecycle fault of `i` is NotBegun, raised exactly before BEGIN. -/
def NeedsBegin (i : Instr) : Prop :=
  ∀ s, lifecycleCheck i s = if s.begun then none else some .notBegun

theorem NeedsBegin.exec_of_not_begun {i : Instr} {s : State} (hneeds : NeedsBegin i) (hbegun : s.begun = false) :
    exec i s = .next (marked s .notBegun (encode i)) :=
  exec_of_fault (by simp [hneeds s, hbegun])

theorem NeedsBegin.exec_of_begun {i : Instr} {s : State} (hneeds : NeedsBegin i) (hbegun : s.begun = true) :
    exec i s = .next (ruleOf i s) :=
  exec_of_check (by simp [hneeds s, hbegun])

end Sys2Proof.Proofs
end

section
/-! One frame as the claims state it, with the bytes received in it (41_register_access.md R120). -/
namespace Sys2Proof.Proofs
open Sys2Proof.Machine Sys2Proof.Claims

@[simp] theorem received_length (s : State) (sent : List Byte) : (received s sent).length = sent.length :=
  rxBytes_length _ _ _

/-- The received bytes the claims leave free are those the oracle gives from the start of the frame. -/
theorem afterFrame_eq_framed_received (s : State) (sent : List Byte) :
    afterFrame s sent =
      framed s sent (received s sent) (afterFrame s sent).oracle (afterFrame s sent).drawCount := by
  by_cases hspeed : s.transactionSpeed = 0#32 <;> simp [afterFrame, framed, frameEvents, frame, hspeed]

/-- A command makes one frame when it answers the state after that frame, changed by `also` with what it received. -/
theorem oneFrame_of_exec {i : Instr} {s start : State} {sent : List Byte} {also : List Byte → State → State}
    (h : exec i s = .next (also (received start sent) (afterFrame start sent))) : OneFrame i s start sent also :=
  ⟨_, _, _, received_length start sent, afterFrame_eq_framed_received start sent ▸ h⟩

end Sys2Proof.Proofs
end

section
/-! Operand bytes: the two halves of a 16-bit value on the wire (20_memory.md R51) and the data byte of a word (R73). -/
namespace Sys2Proof.Proofs
open Sys2Proof.Machine

@[simp] theorem lowByte_append (high low : Byte) : lowByte (high ++ low) = low :=
  BitVec.extractLsb'_append_eq_right

@[simp] theorem highByte_append (high low : Byte) : highByte (high ++ low) = high :=
  BitVec.extractLsb'_append_eq_left

theorem dataByte_eq_dField (w : CommandWord) : dataByte w = (dField w).extractLsb' 0 8 := by
  ext i hi
  simp [dataByte, dField, show i < 16 by omega]

/-- A frame of three bytes captures the last byte received, zero-extended (41_register_access.md R121). -/
theorem fromWire_captured_of_length_three {s : State} {sent : List Byte} (h : sent.length = 3) :
    fromWire (captured s sent) = ((received s sent).getD 2 0).setWidth 16 := by
  obtain ⟨_, _, _, hrx⟩ := List.length_eq_three.mp ((received_length s sent).trans h)
  rw [captured, hrx]
  rfl

/-- A frame of four bytes captures the last two bytes received, low then high (41_register_access.md R121). -/
theorem fromWire_captured_of_length_four {s : State} {sent : List Byte} (h : sent.length = 4) :
    fromWire (captured s sent) = (received s sent).getD 3 0 ++ (received s sent).getD 2 0 := by
  obtain ⟨_, _, _, _, hrx⟩ := List.length_eq_four.mp ((received_length s sent).trans h)
  rw [captured, hrx]
  rfl

end Sys2Proof.Proofs
end

section
/-! The register-level commands (41_register_access.md R123 to R127): each is one frame. -/
namespace Sys2Proof.Proofs
open Sys2Proof.Machine Sys2Proof.Claims

theorem oneFrame_regRead8 {reg : Byte} {s : State} (hbegun : s.begun = true) :
    OneFrame (.regRead8 reg) s s [s.readOpcode, reg, s.params.dummyByte]
      (fun rx t => { t with result := (rx.getD 2 0).setWidth 16 }) := by
  refine oneFrame_of_exec ?_
  rw [NeedsBegin.exec_of_begun (fun _ => rfl) hbegun, ← fromWire_captured_of_length_three rfl]
  simp only [ruleOf, regRead8Rule, memRead8_eq, writeResult]

theorem oneFrame_regRead16 {reg : Byte} {s : State} (hbegun : s.begun = true) :
    OneFrame (.regRead16 reg) s s [s.readOpcode, reg, s.params.dummyByte, s.params.dummyByte]
      (fun rx t => { t with result := rx.getD 3 0 ++ rx.getD 2 0 }) := by
  refine oneFrame_of_exec ?_
  rw [NeedsBegin.exec_of_begun (fun _ => rfl) hbegun, ← fromWire_captured_of_length_four rfl]
  simp only [ruleOf, regRead16Rule, memRead16_eq, writeResult]

theorem exec_regWrite8 {reg data : Byte} {s : State} (hbegun : s.begun = true) :
    exec (.regWrite8 reg data) s = .next (afterFrame s [s.writeOpcode, reg, data]) := by
  rw [NeedsBegin.exec_of_begun (fun _ => rfl) hbegun, ruleOf, regWrite8Rule, memWrite8_eq]

theorem exec_regWrite8Both {reg data : Byte} {s : State} (hbegun : s.begun = true) :
    exec (.regWrite8Both reg data) s = .next (afterFrame s [s.writeOpcode, reg, data, data]) := by
  rw [NeedsBegin.exec_of_begun (fun _ => rfl) hbegun, ruleOf, regWrite8BothRule, memWritePair_eq]

theorem exec_regWrite16 {reg : Byte} {value : Half} {s : State} (hbegun : s.begun = true) :
    exec (.regWrite16 reg value) s = .next (afterFrame s [s.writeOpcode, reg, lowByte value, highByte value]) := by
  rw [NeedsBegin.exec_of_begun (fun _ => rfl) hbegun, ruleOf, regWrite16Rule, memWrite16_eq]

/-- Settles O20: the only byte captured is the third received, the one with the dummy. -/
theorem regRead8ReadsOneByte : Obligations.RegRead8ReadsOneByte := by
  refine ⟨?word, fun reg s => ⟨?fault, ?frame⟩⟩
  case word =>
    exact codeSpells_of_command .regRead8
      (fun w => by simp [RawCommand.mustBeZero, RawCommand.dZero, RawCommand.sZero, rawCommand]) (fun w => rfl)
  case fault => exact NeedsBegin.exec_of_not_begun (fun _ => rfl)
  case frame => exact oneFrame_regRead8

/-- Settles O21: the two bytes captured are the third and the fourth received, the first of them the low half. -/
theorem regRead16ReadsLowThenHigh : Obligations.RegRead16ReadsLowThenHigh := by
  refine ⟨?word, fun reg s => ⟨?fault, ?frame⟩⟩
  case word =>
    exact codeSpells_of_command .regRead16
      (fun w => by simp [RawCommand.mustBeZero, RawCommand.dZero, RawCommand.sZero, rawCommand]) (fun w => rfl)
  case fault => exact NeedsBegin.exec_of_not_begun (fun _ => rfl)
  case frame => exact oneFrame_regRead16

/-- Settles O22: the frame is all that a single-byte write does. -/
theorem regWrite8SendsOneByte : Obligations.RegWrite8SendsOneByte := by
  refine ⟨?word, fun reg data s => ⟨?fault, ?frame⟩⟩
  case word =>
    exact codeSpells_of_command .regWrite8
      (fun w => by simp [RawCommand.mustBeZero, RawCommand.dByteZero, RawCommand.sZero, rawCommand])
      (fun w => by rw [operandsOf, dataByte_eq_dField])
  case fault => exact NeedsBegin.exec_of_not_begun (fun _ => rfl)
  case frame => exact fun hbegun => oneFrame_of_exec (exec_regWrite8 hbegun)

/-- Settles O23: both wire bytes of `data ++ data` are the byte, so the two frames are one. -/
theorem regWrite8BothSendsByteTwice : Obligations.RegWrite8BothSendsByteTwice := by
  refine ⟨?word, fun reg data s => ⟨?fault, fun hbegun => ⟨?frame, ?asWrite16⟩⟩⟩
  case word =>
    exact codeSpells_of_command .regWrite8Both
      (fun w => by simp [RawCommand.mustBeZero, RawCommand.dByteZero, RawCommand.sZero, rawCommand])
      (fun w => by rw [operandsOf, dataByte_eq_dField])
  case fault => exact NeedsBegin.exec_of_not_begun (fun _ => rfl)
  case frame => exact oneFrame_of_exec (exec_regWrite8Both hbegun)
  case asWrite16 => rw [exec_regWrite8Both hbegun, exec_regWrite16 hbegun, lowByte_append, highByte_append]

/-- Settles O24: the frame carries the two bytes of the value itself, whatever the value is. -/
theorem regWrite16SendsLowThenHigh : Obligations.RegWrite16SendsLowThenHigh := by
  refine ⟨?word, fun reg value s => ⟨?fault, ?frame⟩⟩
  case word =>
    exact codeSpells_of_command .regWrite16
      (fun w => by simp [RawCommand.mustBeZero, RawCommand.sZero, rawCommand]) (fun w => rfl)
  case fault => exact NeedsBegin.exec_of_not_begun (fun _ => rfl)
  case frame => exact fun hbegun => oneFrame_of_exec (exec_regWrite16 hbegun)

end Sys2Proof.Proofs
end

section
/-! Lanes of a 16-bit shadow (42_pin_port.md R161) and the pins that name them (R170). -/
namespace Sys2Proof.Proofs
open Sys2Proof.Machine

/-- `setBit` on one of the sixteen lanes writes that lane and keeps the other ones. -/
theorem getLsbD_setBit {i : Nat} (hi : i ≤ 15) (v : Half) (b : Bool) (j : Nat) :
    (setBit v i b).getLsbD j = if j = i then b else v.getLsbD j := by
  have hlane : i < 16 := Nat.lt_succ_of_le hi
  have hmask : (1#16 <<< i).getLsbD j = decide (j = i) := by
    rw [← BitVec.twoPow_eq, BitVec.getLsbD_twoPow]
    simp [hlane, eq_comm]
  by_cases hj : j = i
  · cases b <;> simp [setBit, hj, hlane]
  · cases b with
    | false => simpa [setBit, hmask, hj] using BitVec.lt_of_getLsbD
    | true => simp [setBit, hmask, hj]

theorem legalPin_of_le {pin : Byte} (hpin : pin.toNat ≤ 15) : legalPin pin = true :=
  decide_eq_true hpin

theorem not_legalPin_of_gt {pin : Byte} (hpin : 15 < pin.toNat) : ¬ legalPin pin = true :=
  mt of_decide_eq_true (Nat.not_le_of_lt hpin)

end Sys2Proof.Proofs
end

section
/-! The must-be-0 fields and the one-bit operand of the pin and port commands, over the fields of the word (30_encoding.md
R73, R74): a port command with an operand has it in D, a pin command has the pin in A and a bit in D[0], and PORT_UPDATE and
PORT_READ have no operand. -/
namespace Sys2Proof.Proofs

theorem aZero_and_sZero_iff (w : CommandWord) :
    ((rawCommand w).aZero && (rawCommand w).sZero) = true ↔ aField w = 0 ∧ sField w = 0 := by
  simp [RawCommand.aZero, RawCommand.sZero, rawCommand]

theorem dBitZero_and_sZero_iff (w : CommandWord) :
    ((rawCommand w).dBitZero && (rawCommand w).sZero) = true ↔
      (dField w).extractLsb' 1 15 = 0 ∧ sField w = 0 := by
  simp [RawCommand.dBitZero, RawCommand.sZero, rawCommand]

theorem aZero_and_dZero_and_sZero_iff (w : CommandWord) :
    ((rawCommand w).aZero && (rawCommand w).dZero && (rawCommand w).sZero) = true ↔
      aField w = 0 ∧ dField w = 0 ∧ sField w = 0 := by
  simp [RawCommand.aZero, RawCommand.dZero, RawCommand.sZero, rawCommand, and_assoc]

theorem dataBit_eq_dField (w : CommandWord) : dataBit w = (dField w).getLsbD 0 := by
  simp [dataBit, dField]

end Sys2Proof.Proofs
end

section
/-! A shadow and the register it goes to: each write of a shadow is one frame that carries the whole new value, from the
state that has it already (42_pin_port.md R150 to R153). -/
namespace Sys2Proof.Proofs
open Sys2Proof.Machine Sys2Proof.Claims

theorem writeDirection_eq (v : Half) (s : State) :
    writeDirection v s = afterFrame { s with shadowDirection := v } [s.writeOpcode, 0x00, lowByte v, highByte v] :=
  memWrite16_eq 0x00 v { s with shadowDirection := v }

/-- The two readings of `PORT_WRITE_REG` are the addresses of GPIO and OLAT (00_scope.md R7). -/
theorem portWriteAddress_eq_portAddress (s : State) : portWriteAddress s.params = portAddress s := by
  unfold portWriteAddress portAddress
  cases s.params.portWriteReg <;> rfl

theorem writeOutput_eq (v : Half) (s : State) :
    writeOutput v s = afterFrame { s with shadowOutput := v } [s.writeOpcode, portAddress s, lowByte v, highByte v] := by
  rw [writeOutput, portWriteAddress_eq_portAddress, memWrite16_eq]

end Sys2Proof.Proofs
end

section
/-! The direction commands (42_pin_port.md R150, R151, R160). -/
namespace Sys2Proof.Proofs
open Sys2Proof.Machine Sys2Proof.Claims

/-- Under `level` a direction word is read as a level (R160). -/
theorem decodeDir_of_level {p : Config.Params} (hmode : p.dirSentinelMode = .level) (value : Half) :
    decodeDir p value = decodeLevel p value := by
  rw [decodeDir, hmode]

/-- Under `modeConst` the low sentinel is compared first and makes every pin an input (R160). -/
theorem decodeDir_of_modeConst {p : Config.Params} (hmode : p.dirSentinelMode = .modeConst) (value : Half) :
    decodeDir p value = if value = p.sentLow then 0xFFFF else if value = p.sentHigh then 0x0000 else value := by
  rw [decodeDir, hmode]

theorem exec_portMode {value : Half} {s : State} (hbegun : s.begun = true) :
    exec (.portMode value) s = .next (writeDirection (decodeDir s.params value) s) :=
  NeedsBegin.exec_of_begun (fun _ => rfl) hbegun

theorem exec_pinMode_of_le {pin : Byte} {input : Bool} {s : State} (hbegun : s.begun = true) (hpin : pin.toNat ≤ 15) :
    exec (.pinMode pin input) s = .next (writeDirection (setBit s.shadowDirection pin.toNat input) s) := by
  rw [NeedsBegin.exec_of_begun (fun _ => rfl) hbegun, ruleOf, pinModeRule, if_pos (legalPin_of_le hpin)]

theorem exec_pinMode_of_gt {pin : Byte} {input : Bool} {s : State} (hbegun : s.begun = true) (hpin : 15 < pin.toNat) :
    exec (.pinMode pin input) s = .next s := by
  rw [NeedsBegin.exec_of_begun (fun _ => rfl) hbegun, ruleOf, pinModeRule, if_neg (not_legalPin_of_gt hpin)]

/-- A command that writes the direction shadow makes the one frame to DIR. -/
theorem oneFrame_of_exec_writeDirection {i : Instr} {v : Half} {s : State}
    (h : exec i s = .next (writeDirection v s)) :
    OneFrame i s { s with shadowDirection := v } [s.writeOpcode, 0x00, v.extractLsb' 0 8, v.extractLsb' 8 8]
      (fun _ t => t) :=
  oneFrame_of_exec (h.trans (congrArg _ (writeDirection_eq v s)))

/-- Settles O28: the direction word is `decodeDir` of the operand, which the two modes read in their two ways. -/
theorem portModeWritesDirection : Obligations.PortModeWritesDirection := by
  refine ⟨?word, fun value s => ⟨?fault, fun hbegun => ⟨decodeDir s.params value, ?level, ?modeConst, ?frame⟩⟩⟩
  case word => exact codeSpells_of_command .portMode aZero_and_sZero_iff (fun w => rfl)
  case fault => exact NeedsBegin.exec_of_not_begun (fun _ => rfl)
  case level => exact fun hmode => decodeDir_of_level hmode value
  case modeConst => exact fun hmode => decodeDir_of_modeConst hmode value
  case frame => exact oneFrame_of_exec_writeDirection (exec_portMode hbegun)

/-- Settles O29: a legal pin is one lane of the shadow, which goes out whole. -/
theorem pinModeWritesOneLane : Obligations.PinModeWritesOneLane := by
  refine ⟨?word, fun pin input s => ⟨?fault, ?outOfRange, fun hbegun hpin =>
    ⟨setBit s.shadowDirection pin.toNat input, ?lanes, ?frame⟩⟩⟩
  case word =>
    exact codeSpells_of_command .pinMode dBitZero_and_sZero_iff (fun w => by rw [operandsOf, dataBit_eq_dField])
  case fault => exact NeedsBegin.exec_of_not_begun (fun _ => rfl)
  case outOfRange => exact exec_pinMode_of_gt
  case lanes => exact fun j _ => getLsbD_setBit hpin _ input j
  case frame => exact oneFrame_of_exec_writeDirection (exec_pinMode_of_le hbegun hpin)

end Sys2Proof.Proofs
end

section
/-! The output commands (42_pin_port.md R152 to R155): PORT_WRITE and PIN_WRITE write the shadow and the port,
PIN_WRITE_FAST the shadow alone, PORT_UPDATE the port alone. -/
namespace Sys2Proof.Proofs
open Sys2Proof.Machine Sys2Proof.Claims

theorem exec_portWrite {value : Half} {s : State} (hbegun : s.begun = true) :
    exec (.portWrite value) s = .next (writeOutput (decodeLevel s.params value) s) :=
  NeedsBegin.exec_of_begun (fun _ => rfl) hbegun

theorem exec_pinWrite_of_le {pin : Byte} {level : Bool} {s : State} (hbegun : s.begun = true) (hpin : pin.toNat ≤ 15) :
    exec (.pinWrite pin level) s = .next (writeOutput (setBit s.shadowOutput pin.toNat level) s) := by
  rw [NeedsBegin.exec_of_begun (fun _ => rfl) hbegun, ruleOf, pinWriteRule, if_pos (legalPin_of_le hpin)]

theorem exec_pinWrite_of_gt {pin : Byte} {level : Bool} {s : State} (hbegun : s.begun = true) (hpin : 15 < pin.toNat) :
    exec (.pinWrite pin level) s = .next s := by
  rw [NeedsBegin.exec_of_begun (fun _ => rfl) hbegun, ruleOf, pinWriteRule, if_neg (not_legalPin_of_gt hpin)]

theorem exec_pinWriteFast_of_le {pin : Byte} {level : Bool} {s : State} (hbegun : s.begun = true)
    (hpin : pin.toNat ≤ 15) :
    exec (.pinWriteFast pin level) s = .next { s with shadowOutput := setBit s.shadowOutput pin.toNat level } := by
  rw [NeedsBegin.exec_of_begun (fun _ => rfl) hbegun, ruleOf, pinWriteFastRule, if_pos (legalPin_of_le hpin)]

theorem exec_pinWriteFast_of_gt {pin : Byte} {level : Bool} {s : State} (hbegun : s.begun = true)
    (hpin : 15 < pin.toNat) : exec (.pinWriteFast pin level) s = .next s := by
  rw [NeedsBegin.exec_of_begun (fun _ => rfl) hbegun, ruleOf, pinWriteFastRule, if_neg (not_legalPin_of_gt hpin)]

/-- PORT_UPDATE is the REG_WRITE16 of the output shadow at the port's address. -/
theorem exec_portUpdate {s : State} (hbegun : s.begun = true) :
    exec .portUpdate s = exec (.regWrite16 (portAddress s) s.shadowOutput) s := by
  rw [NeedsBegin.exec_of_begun (fun _ => rfl) hbegun, NeedsBegin.exec_of_begun (fun _ => rfl) hbegun,
    ← portWriteAddress_eq_portAddress]
  rfl

/-- A command that writes the output shadow and the port makes the one frame to the port. -/
theorem oneFrame_of_exec_writeOutput {i : Instr} {v : Half} {s : State} (h : exec i s = .next (writeOutput v s)) :
    OneFrame i s { s with shadowOutput := v } [s.writeOpcode, portAddress s, v.extractLsb' 0 8, v.extractLsb' 8 8]
      (fun _ t => t) :=
  oneFrame_of_exec (h.trans (congrArg _ (writeOutput_eq v s)))

/-- Settles O30: the output word is `decodeLevel` of the operand. -/
theorem portWriteWritesOutput : Obligations.PortWriteWritesOutput := by
  refine ⟨?word, fun value s => ⟨?fault, fun hbegun => ⟨decodeLevel s.params value, rfl, ?frame⟩⟩⟩
  case word => exact codeSpells_of_command .portWrite aZero_and_sZero_iff (fun w => rfl)
  case fault => exact NeedsBegin.exec_of_not_begun (fun _ => rfl)
  case frame => exact oneFrame_of_exec_writeOutput (exec_portWrite hbegun)

/-- Settles O31: a legal pin is one lane of the shadow, which goes out whole; the direction is not consulted. -/
theorem pinWriteWritesOneLane : Obligations.PinWriteWritesOneLane := by
  refine ⟨?word, fun pin level s => ⟨?fault, ?outOfRange, fun hbegun hpin =>
    ⟨setBit s.shadowOutput pin.toNat level, ?lanes, ?frame⟩⟩⟩
  case word =>
    exact codeSpells_of_command .pinWrite dBitZero_and_sZero_iff (fun w => by rw [operandsOf, dataBit_eq_dField])
  case fault => exact NeedsBegin.exec_of_not_begun (fun _ => rfl)
  case outOfRange => exact exec_pinWrite_of_gt
  case lanes => exact fun j _ => getLsbD_setBit hpin _ level j
  case frame => exact oneFrame_of_exec_writeOutput (exec_pinWrite_of_le hbegun hpin)

/-- Settles O32: the lane of the shadow is all that a fast write changes. -/
theorem pinWriteFastTouchesShadowOnly : Obligations.PinWriteFastTouchesShadowOnly := by
  refine ⟨?word, fun pin level s => ⟨?fault, ?outOfRange, fun hbegun hpin =>
    ⟨setBit s.shadowOutput pin.toNat level, ?lanes, ?shadow⟩⟩⟩
  case word =>
    exact codeSpells_of_command .pinWriteFast dBitZero_and_sZero_iff (fun w => by rw [operandsOf, dataBit_eq_dField])
  case fault => exact NeedsBegin.exec_of_not_begun (fun _ => rfl)
  case outOfRange => exact exec_pinWriteFast_of_gt
  case lanes => exact fun j _ => getLsbD_setBit hpin _ level j
  case shadow => exact exec_pinWriteFast_of_le hbegun hpin

/-- Settles O33: the frame is that of the register write it is. -/
theorem portUpdateFlushesOutput : Obligations.PortUpdateFlushesOutput := by
  refine ⟨?word, fun s => ⟨?fault, ?frame⟩⟩
  case word => exact codeSpells_of_command .portUpdate aZero_and_dZero_and_sZero_iff (fun w => rfl)
  case fault => exact NeedsBegin.exec_of_not_begun (fun _ => rfl)
  case frame => exact fun hbegun => oneFrame_of_exec ((exec_portUpdate hbegun).trans (exec_regWrite16 hbegun))

end Sys2Proof.Proofs
end

section
/-! PORT_READ and PORT_PULLUP (42_pin_port.md R156, R159): the register commands at GPIO and PULLUP. -/
namespace Sys2Proof.Proofs
open Sys2Proof.Machine Sys2Proof.Claims

/-- PORT_READ is the REG_READ16 of GPIO. -/
theorem exec_portRead {s : State} (hbegun : s.begun = true) : exec .portRead s = exec (.regRead16 0x12) s := by
  rw [NeedsBegin.exec_of_begun (fun _ => rfl) hbegun, NeedsBegin.exec_of_begun (fun _ => rfl) hbegun]
  rfl

/-- PORT_PULLUP is the REG_WRITE16 of its decoded operand at PULLUP. -/
theorem exec_portPullup {value : Half} {s : State} (hbegun : s.begun = true) :
    exec (.portPullup value) s = exec (.regWrite16 0x0C (decodeLevel s.params value)) s := by
  rw [NeedsBegin.exec_of_begun (fun _ => rfl) hbegun, NeedsBegin.exec_of_begun (fun _ => rfl) hbegun]
  rfl

/-- Settles O34: the frame and RESULT are those of the register read it is. -/
theorem portReadReadsGpio : Obligations.PortReadReadsGpio := by
  refine ⟨?word, fun s => ⟨?fault, ?frame⟩⟩
  case word => exact codeSpells_of_command .portRead aZero_and_dZero_and_sZero_iff (fun w => rfl)
  case fault => exact NeedsBegin.exec_of_not_begun (fun _ => rfl)
  case frame =>
    intro hbegun
    rw [OneFrame, exec_portRead hbegun]
    exact oneFrame_regRead16 hbegun

/-- Settles O37: the frame is that of the register write it is, with the operand read as a level. -/
theorem portPullupWritesPullup : Obligations.PortPullupWritesPullup := by
  refine ⟨?word, fun value s => ⟨?fault, fun hbegun => ⟨decodeLevel s.params value, rfl, ?frame⟩⟩⟩
  case word => exact codeSpells_of_command .portPullup aZero_and_sZero_iff (fun w => rfl)
  case fault => exact NeedsBegin.exec_of_not_begun (fun _ => rfl)
  case frame => exact oneFrame_of_exec ((exec_portPullup hbegun).trans (exec_regWrite16 hbegun))

end Sys2Proof.Proofs
end

section
/-! A decoded word is the word of its command (30_encoding.md R71, R73, R76): the must-be-0 fields leave the command no bit
to lose, so the word a lifecycle fault records is the word that was presented (log 3). -/
namespace Sys2Proof.Proofs

/-- A field with nothing from bit `k` on is its low `k` bits, extended with zeros. -/
theorem setWidth_low_of_high_eq_zero {n k : Nat} {x : BitVec n} (h : x.extractLsb' k (n - k) = 0) :
    (x.extractLsb' 0 k).setWidth n = x := by
  ext i hi
  by_cases hk : i < k
  · simp [hk, hi]
  · have hbit := congrArg (BitVec.getLsbD · (i - k)) h
    have hx : x[i] = false := by
      simpa [show i - k < n - k by omega, show k + (i - k) = i by omega, hi] using hbit
    simp [hk, hx]

theorem byteHalf_dataByte {w : CommandWord} (h : (dField w).extractLsb' 8 8 = 0) : byteHalf (dataByte w) = dField w := by
  rw [dataByte_eq_dField]
  exact setWidth_low_of_high_eq_zero h

/-- The lowest bit of a field, as a number of the field's width. -/
theorem setWidth_lowest_eq_ite {n : Nat} (x : BitVec n) :
    (x.extractLsb' 0 1).setWidth n = if x.getLsbD 0 then 1 else 0 := by
  ext i hi
  by_cases hlowest : i = 0
  · subst hlowest
    rw [BitVec.getLsbD_eq_getElem hi]
    cases hbit : x[0] <;> simp [hbit, hi]
  · cases hbit : x.getLsbD 0 <;> simp [hlowest]

theorem bitHalf_dataBit {w : CommandWord} (h : (dField w).extractLsb' 1 15 = 0) : bitHalf (dataBit w) = dField w := by
  rw [dataBit_eq_dField, bitHalf, ← setWidth_lowest_eq_ite]
  exact setWidth_low_of_high_eq_zero h

theorem ite_skipBit {w : CommandWord} (h : (aField w).extractLsb' 1 7 = 0) :
    (if skipBit w then 1 else 0) = aField w := by
  have hskip : skipBit w = (aField w).getLsbD 0 := by simp [skipBit, aField]
  rw [hskip, ← setWidth_lowest_eq_ite]
  exact setWidth_low_of_high_eq_zero h

/-- A word is packed from its four fields, however these are written. -/
theorem pack_eq_of_fields {w : CommandWord} {c a : Byte} {d : Half} {s : Speed} (hc : cmdField w = c)
    (ha : aField w = a) (hd : dField w = d) (hs : sField w = s) : pack c a d s = w := by
  rw [← hc, ← ha, ← hd, ← hs, pack_fields]

/-! Each entry of the column "must be 0" (R74), of the fields of a word. -/

@[simp] theorem aZero_rawCommand (w : CommandWord) : (rawCommand w).aZero = true ↔ aField w = 0 :=
  beq_iff_eq

@[simp] theorem aHighZero_rawCommand (w : CommandWord) :
    (rawCommand w).aHighZero = true ↔ (aField w).extractLsb' 1 7 = 0 :=
  beq_iff_eq

@[simp] theorem dZero_rawCommand (w : CommandWord) : (rawCommand w).dZero = true ↔ dField w = 0 :=
  beq_iff_eq

@[simp] theorem dByteZero_rawCommand (w : CommandWord) :
    (rawCommand w).dByteZero = true ↔ (dField w).extractLsb' 8 8 = 0 :=
  beq_iff_eq

@[simp] theorem dBitZero_rawCommand (w : CommandWord) :
    (rawCommand w).dBitZero = true ↔ (dField w).extractLsb' 1 15 = 0 :=
  beq_iff_eq

@[simp] theorem sZero_rawCommand (w : CommandWord) : (rawCommand w).sZero = true ↔ sField w = 0 :=
  beq_iff_eq

/-- By the operands a command has: each is the field it was read from, and a field with no operand is 0. -/
theorem encode_operandsOf {w : CommandWord} {c : Command} (hcode : cmdField w = c.assignedCode)
    (hzero : (rawCommand w).mustBeZero c = true) : encode (operandsOf w c) = w := by
  cases c with
  | configure => exact pack_eq_of_fields hcode rfl rfl rfl
  | setSpeed =>
    obtain ⟨ha, hd⟩ : aField w = 0 ∧ dField w = 0 := by simpa [RawCommand.mustBeZero] using hzero
    exact pack_eq_of_fields hcode ha hd rfl
  | beginInit =>
    obtain ⟨⟨ha, hd⟩, hs⟩ : ((aField w).extractLsb' 1 7 = 0 ∧ dField w = 0) ∧ sField w = 0 := by
      simpa [RawCommand.mustBeZero] using hzero
    exact pack_eq_of_fields hcode (ite_skipBit ha).symm hd hs
  | regRead8 | regRead16 | pinRead | pinReadFast =>
    obtain ⟨hd, hs⟩ : dField w = 0 ∧ sField w = 0 := by simpa [RawCommand.mustBeZero] using hzero
    exact pack_eq_of_fields hcode rfl hd hs
  | regWrite8 | regWrite8Both =>
    obtain ⟨hd, hs⟩ : (dField w).extractLsb' 8 8 = 0 ∧ sField w = 0 := by
      simpa [RawCommand.mustBeZero] using hzero
    exact pack_eq_of_fields hcode rfl (byteHalf_dataByte hd).symm hs
  | regWrite16 => exact pack_eq_of_fields hcode rfl rfl ((sZero_rawCommand w).mp hzero)
  | portMode | portWrite | portPullup =>
    obtain ⟨ha, hs⟩ := (aZero_and_sZero_iff w).mp hzero
    exact pack_eq_of_fields hcode ha rfl hs
  | pinMode | pinWrite | pinWriteFast =>
    obtain ⟨hd, hs⟩ := (dBitZero_and_sZero_iff w).mp hzero
    exact pack_eq_of_fields hcode rfl (bitHalf_dataBit hd).symm hs
  | portUpdate | portRead =>
    obtain ⟨ha, hd, hs⟩ := (aZero_and_dZero_and_sZero_iff w).mp hzero
    exact pack_eq_of_fields hcode ha hd hs

/-- A word that decodes has the code of its command and zeros where the command has no operand. -/
theorem encode_eq_of_decode {w : CommandWord} {i : Instr} (h : decode w = .ok i) : encode i = w := by
  obtain ⟨row, hrow, haccepts, rfl⟩ := decode_ok h
  obtain ⟨hcode, hzero⟩ := (row_accepts_iff (lookupRow_mem hrow) w).mp haccepts
  exact encode_operandsOf hcode hzero

end Sys2Proof.Proofs
end

section
/-! The rules leave the fault mark alone (60_exceptions.md R181): of a command, only its lifecycle check sets it. -/
namespace Sys2Proof.Proofs
open Sys2Proof.Machine

theorem fault_ite {c : Prop} [Decidable c] {s t u : State} (ht : t.fault = s.fault) (hu : u.fault = s.fault) :
    (if c then t else u).fault = s.fault := by
  split
  · exact ht
  · exact hu

theorem memRead8_fault (reg : Byte) (s : State) : (memRead8 reg s).2.fault = s.fault := by
  rw [memRead8_eq, afterFrame_fault]

theorem memRead16_fault (reg : Byte) (s : State) : (memRead16 reg s).2.fault = s.fault := by
  rw [memRead16_eq, afterFrame_fault]

theorem memWrite8_fault (reg b : Byte) (s : State) : (memWrite8 reg b s).fault = s.fault := by
  rw [memWrite8_eq, afterFrame_fault]

theorem memWrite16_fault (reg : Byte) (v : Half) (s : State) : (memWrite16 reg v s).fault = s.fault := by
  rw [memWrite16_eq, afterFrame_fault]

theorem memWritePair_fault (reg b : Byte) (s : State) : (memWritePair reg b s).fault = s.fault := by
  rw [memWritePair_eq, afterFrame_fault]

theorem writeDirection_fault (v : Half) (s : State) : (writeDirection v s).fault = s.fault := by
  rw [writeDirection_eq, afterFrame_fault]

theorem writeOutput_fault (v : Half) (s : State) : (writeOutput v s).fault = s.fault := by
  rw [writeOutput_eq, afterFrame_fault]

theorem beginRule_fault (skip : Bool) (s : State) : (beginRule skip s).fault = s.fault := by
  simp [beginRule_eq, beginAfterControl, beginPrelude_eq]

theorem ruleOf_fault (i : Instr) (s : State) : (ruleOf i s).fault = s.fault := by
  cases i with
  | configure sel code speed => rfl
  | setSpeed hz => rfl
  | beginInit skip => exact beginRule_fault skip s
  | regRead8 reg => exact memRead8_fault reg s
  | regRead16 reg => exact memRead16_fault reg s
  | regWrite8 reg data => exact memWrite8_fault reg data s
  | regWrite8Both reg data => exact memWritePair_fault reg data s
  | regWrite16 reg value => exact memWrite16_fault reg value s
  | portMode value => exact writeDirection_fault _ s
  | pinMode pin input => exact fault_ite (writeDirection_fault _ s) rfl
  | portWrite value => exact writeOutput_fault _ s
  | pinWrite pin level => exact fault_ite (writeOutput_fault _ s) rfl
  | pinWriteFast pin level => exact fault_ite rfl rfl
  | portUpdate => exact memWrite16_fault _ _ s
  | portRead => exact memRead16_fault _ s
  | pinRead pin => exact fault_ite (memRead16_fault _ s) rfl
  | pinReadFast pin => exact fault_ite rfl rfl
  | portPullup value => exact memWrite16_fault _ _ s

/-- A command that its lifecycle check lets through runs and sets no mark. -/
theorem exec_keeps_fault_of_check {i : Instr} {s : State} (h : lifecycleCheck i s = none) :
    ∃ t, exec i s = .next t ∧ t.fault = s.fault :=
  ⟨ruleOf i s, exec_of_check h, ruleOf_fault i s⟩

end Sys2Proof.Proofs
end

section
/-! The lifecycle faults (60_exceptions.md R184): the table of the check, one lemma for each of its rows, by command. -/
namespace Sys2Proof.Proofs
open Sys2Proof.Machine Sys2Proof.Claims

theorem lifecycleCheck_of_configure {i : Instr} (hcommand : i.command = .configure) (s : State) :
    lifecycleCheck i s = if s.begun then some .configAfterBegin else none := by
  cases i with
  | configure sel code speed => rfl
  | _ => cases hcommand

theorem lifecycleCheck_of_setSpeed {i : Instr} (hcommand : i.command = .setSpeed) (s : State) :
    lifecycleCheck i s = none := by
  cases i with
  | setSpeed hz => rfl
  | _ => cases hcommand

theorem lifecycleCheck_of_beginInit {i : Instr} (hcommand : i.command = .beginInit) (s : State) :
    lifecycleCheck i s =
      if s.configured = false then some .notConfigured else if s.begun then some .doubleBegin else none := by
  cases i with
  | beginInit skip => rfl
  | _ => cases hcommand

/-- The row "otherwise". -/
theorem needsBegin_of_command {i : Instr} (hconfigure : i.command ≠ .configure) (hsetSpeed : i.command ≠ .setSpeed)
    (hbegin : i.command ≠ .beginInit) : NeedsBegin i := by
  cases i with
  | configure sel code speed => exact absurd rfl hconfigure
  | setSpeed hz => exact absurd rfl hsetSpeed
  | beginInit skip => exact absurd rfl hbegin
  | _ => exact fun _ => rfl

/-- Settles O11: the word of the mark is the decoded word, each fault is a row of the check that fails, and where the check
passes the command's rule leaves the mark alone. -/
theorem lifecycleFaults : Obligations.LifecycleFaults := by
  intro i s
  refine ⟨fun w hdecode => ?faults, ?runs⟩
  case faults =>
    obtain rfl : encode i = w := encode_eq_of_decode hdecode
    refine ⟨fun hcommand hbegun => exec_of_fault ?configAfterBegin,
      fun hcommand hconfigured => exec_of_fault ?notConfigured,
      fun hcommand hconfigured hbegun => exec_of_fault ?doubleBegin, ?notBegun⟩
    case configAfterBegin => rw [lifecycleCheck_of_configure hcommand, if_pos hbegun]
    case notConfigured => rw [lifecycleCheck_of_beginInit hcommand, if_pos hconfigured]
    case doubleBegin => simp [lifecycleCheck_of_beginInit hcommand, hconfigured, hbegun]
    case notBegun =>
      intro hconfigure hsetSpeed hbegin
      exact (needsBegin_of_command hconfigure hsetSpeed hbegin).exec_of_not_begun
  case runs =>
    intro hlegal
    apply exec_keeps_fault_of_check
    obtain hspeed | ⟨hcommand, hbegun⟩ | ⟨hcommand, hconfigured, hbegun⟩ | ⟨hconfigure, hbegin, hbegun⟩ := hlegal
    · exact lifecycleCheck_of_setSpeed hspeed s
    · simp [lifecycleCheck_of_configure hcommand, hbegun]
    · simp [lifecycleCheck_of_beginInit hcommand, hconfigured, hbegun]
    · by_cases hspeed : i.command = .setSpeed
      · exact lifecycleCheck_of_setSpeed hspeed s
      · simp [needsBegin_of_command hconfigure hspeed hbegin s, hbegun]

end Sys2Proof.Proofs
end

section
/-! The state right after reset (70_reset_and_hazards.md R200, R203), for any parameters. -/
namespace Sys2Proof.Proofs
open Sys2Proof.Machine Sys2Proof.Claims

theorem resetWith_cleanEntry (p : Config.Params) : cleanEntry (State.resetWith p) :=
  ⟨rfl, rfl, rfl, rfl, rfl⟩

/-- R200: addressing is off after reset, and the opcode bytes are those without a hardware address. -/
theorem resetWith_addressing (p : Config.Params) :
    (State.resetWith p).addressingEnabled = false ∧ (State.resetWith p).hardwareAddress = 0
      ∧ (State.resetWith p).readOpcode = 0x01 ∧ (State.resetWith p).writeOpcode = 0x00 :=
  ⟨rfl, rfl, rfl, rfl⟩

theorem resetWith_transactionSpeed (p : Config.Params) : (State.resetWith p).transactionSpeed = 0 := rfl

/-- Settles O12: the clean entry, then addressing and speed; the parameters reach none of these fields. -/
theorem resetIsCleanEntry : Obligations.ResetIsCleanEntry := by
  intro p
  obtain ⟨hfault, hconfigured, hbegun, hreserved, hhistory⟩ := resetWith_cleanEntry p
  obtain ⟨henabled, haddress, hread, hwrite⟩ := resetWith_addressing p
  exact ⟨hfault, hconfigured, hbegun, hreserved, hhistory, henabled, haddress, hread, hwrite,
    resetWith_transactionSpeed p⟩

end Sys2Proof.Proofs
end

section
/-! What a command can do (60_exceptions.md R183, R184; 20_memory.md R56, R58), said once: it sets the fault mark, it is one
of the three configuration commands, or it runs after BEGIN and makes one frame or none. -/
namespace Sys2Proof.Proofs
open Sys2Proof.Machine Sys2Proof.Claims

/-- `sent` is an opcode of `s`, a register address and one or two bytes more (30_encoding.md R80). -/
def IsFrameOf (s : State) (sent : List Byte) : Prop :=
  ∃ opcode reg data, sent = opcode :: reg :: data ∧ (opcode = s.readOpcode ∨ opcode = s.writeOpcode)
    ∧ (data.length = 1 ∨ data.length = 2)

/-- `t` is an answer of the command `i` in `s`; an answer's hypotheses name the commands that may write a field
(10_state.md R22). -/
inductive Answers (i : Instr) (s : State) : State → Prop where
  | fault (kind : FaultKind) (hcheck : lifecycleCheck i s = some kind) : Answers i s (marked s kind (encode i))
  | configure (sel : Half) (code : Byte) (speed : Speed) (hi : i = .configure sel code speed)
      (hbegun : s.begun = false) : Answers i s (configureRule sel code speed s)
  | setSpeed (hz : Speed) (hi : i = .setSpeed hz) : Answers i s (setSpeedRule hz s)
  | beginInit (skip : Bool) (hi : i = .beginInit skip) (hconfigured : s.configured = true)
      (hbegun : s.begun = false) : Answers i s (beginRule skip s)
  | quiet (output result : Half) (drawCount : Nat) (hbegun : s.begun = true) (hcount : transactionsOf i = 0)
      (houtput : output = s.shadowOutput ∨ i.command ∈ [.pinWriteFast])
      (hresult : result = s.result ∨ i.command ∈ [.pinRead, .pinReadFast]) :
      Answers i s { s with shadowOutput := output, result := result, drawCount := drawCount }
  | frame (direction output result : Half) (sent : List Byte) (hbegun : s.begun = true) (hcount : transactionsOf i = 1)
      (hsent : IsFrameOf s sent)
      (hdirection : direction = s.shadowDirection ∨ i.command ∈ [.portMode, .pinMode])
      (houtput : output = s.shadowOutput ∨ i.command ∈ [.portWrite, .pinWrite])
      (hresult : result = s.result ∨ i.command ∈ [.regRead8, .regRead16, .portRead, .pinRead]) :
      Answers i s
        (writeResult result (afterFrame { s with shadowDirection := direction, shadowOutput := output } sent))

section
variable {i : Instr} {s : State} (hbegun : s.begun = true)
include hbegun

theorem answers_afterFrame {sent : List Byte} (hcount : transactionsOf i = 1) (hsent : IsFrameOf s sent) :
    Answers i s (afterFrame s sent) :=
  .frame s.shadowDirection s.shadowOutput s.result sent hbegun hcount hsent (.inl rfl) (.inl rfl) (.inl rfl)

theorem answers_writeResult {v : Half} {sent : List Byte} (hcount : transactionsOf i = 1) (hsent : IsFrameOf s sent)
    (hcommand : i.command ∈ [.regRead8, .regRead16, .portRead, .pinRead]) :
    Answers i s (writeResult v (afterFrame s sent)) :=
  .frame s.shadowDirection s.shadowOutput v sent hbegun hcount hsent (.inl rfl) (.inl rfl) (.inr hcommand)

theorem answers_memRead16 {reg : Byte} {v : Half} (hcount : transactionsOf i = 1)
    (hcommand : i.command ∈ [.regRead8, .regRead16, .portRead, .pinRead]) :
    Answers i s (writeResult v (memRead16 reg s).2) := by
  rw [memRead16_eq]
  exact answers_writeResult hbegun hcount ⟨_, _, _, rfl, .inl rfl, .inr rfl⟩ hcommand

theorem answers_memWrite16 {reg : Byte} {v : Half} (hcount : transactionsOf i = 1) :
    Answers i s (memWrite16 reg v s) := by
  rw [memWrite16_eq]
  exact answers_afterFrame hbegun hcount ⟨_, _, _, rfl, .inr rfl, .inr rfl⟩

theorem answers_writeDirection {v : Half} (hcount : transactionsOf i = 1)
    (hcommand : i.command ∈ [.portMode, .pinMode]) : Answers i s (writeDirection v s) := by
  rw [writeDirection_eq]
  exact .frame v s.shadowOutput s.result _ hbegun hcount ⟨_, _, _, rfl, .inr rfl, .inr rfl⟩ (.inr hcommand) (.inl rfl)
    (.inl rfl)

theorem answers_writeOutput {v : Half} (hcount : transactionsOf i = 1)
    (hcommand : i.command ∈ [.portWrite, .pinWrite]) : Answers i s (writeOutput v s) := by
  rw [writeOutput_eq]
  exact .frame s.shadowDirection v s.result _ hbegun hcount ⟨_, _, _, rfl, .inr rfl, .inr rfl⟩ (.inl rfl)
    (.inr hcommand) (.inl rfl)

theorem answers_drawResult (hcount : transactionsOf i = 0) (hcommand : i.command ∈ [.pinRead, .pinReadFast]) :
    Answers i s (drawResult s) :=
  .quiet s.shadowOutput _ _ hbegun hcount (.inl rfl) (.inr hcommand)

theorem answers_unchanged (hcount : transactionsOf i = 0) : Answers i s s :=
  .quiet s.shadowOutput s.result s.drawCount hbegun hcount (.inl rfl) (.inl rfl)

/-- A command of 41_register_access.md or 42_pin_port.md makes its one frame, or none where its pin is out of range. -/
theorem answers_ruleOf (hconfigure : i.command ≠ .configure) (hsetSpeed : i.command ≠ .setSpeed)
    (hbegin : i.command ≠ .beginInit) : Answers i s (ruleOf i s) := by
  cases i with
  | configure sel code speed => exact absurd rfl hconfigure
  | setSpeed hz => exact absurd rfl hsetSpeed
  | beginInit skip => exact absurd rfl hbegin
  | regRead8 reg =>
    rw [ruleOf, regRead8Rule, memRead8_eq]
    exact answers_writeResult hbegun rfl ⟨_, _, _, rfl, .inl rfl, .inl rfl⟩ (by simp [Instr.command])
  | regRead16 reg => exact answers_memRead16 hbegun rfl (by simp [Instr.command])
  | regWrite8 reg data =>
    rw [ruleOf, regWrite8Rule, memWrite8_eq]
    exact answers_afterFrame hbegun rfl ⟨_, _, _, rfl, .inr rfl, .inl rfl⟩
  | regWrite8Both reg data =>
    rw [ruleOf, regWrite8BothRule, memWritePair_eq]
    exact answers_afterFrame hbegun rfl ⟨_, _, _, rfl, .inr rfl, .inr rfl⟩
  | regWrite16 reg value => exact answers_memWrite16 hbegun rfl
  | portMode value => exact answers_writeDirection hbegun rfl (by simp [Instr.command])
  | pinMode pin input =>
    by_cases hpin : pin.toNat ≤ 15
    · rw [ruleOf, pinModeRule, if_pos (legalPin_of_le hpin)]
      exact answers_writeDirection hbegun (if_pos hpin) (by simp [Instr.command])
    · rw [ruleOf, pinModeRule, if_neg (not_legalPin_of_gt (Nat.lt_of_not_le hpin))]
      exact answers_unchanged hbegun (if_neg hpin)
  | portWrite value => exact answers_writeOutput hbegun rfl (by simp [Instr.command])
  | pinWrite pin level =>
    by_cases hpin : pin.toNat ≤ 15
    · rw [ruleOf, pinWriteRule, if_pos (legalPin_of_le hpin)]
      exact answers_writeOutput hbegun (if_pos hpin) (by simp [Instr.command])
    · rw [ruleOf, pinWriteRule, if_neg (not_legalPin_of_gt (Nat.lt_of_not_le hpin))]
      exact answers_unchanged hbegun (if_neg hpin)
  | pinWriteFast pin level =>
    rw [ruleOf, pinWriteFastRule]
    split
    · exact .quiet _ s.result s.drawCount hbegun rfl (.inr (by simp [Instr.command])) (.inl rfl)
    · exact answers_unchanged hbegun rfl
  | portUpdate => exact answers_memWrite16 hbegun rfl
  | portRead => exact answers_memRead16 hbegun rfl (by simp [Instr.command])
  | pinRead pin =>
    by_cases hpin : pin.toNat ≤ 15
    · rw [ruleOf, pinReadRule, if_pos (legalPin_of_le hpin)]
      exact answers_memRead16 hbegun (if_pos hpin) (by simp [Instr.command])
    · rw [ruleOf, pinReadRule, if_neg (not_legalPin_of_gt (Nat.lt_of_not_le hpin))]
      exact answers_drawResult hbegun (if_neg hpin) (by simp [Instr.command])
  | pinReadFast pin =>
    rw [ruleOf, pinReadFastRule]
    split
    · exact .quiet s.shadowOutput _ s.drawCount hbegun rfl (.inl rfl) (.inr (by simp [Instr.command]))
    · exact answers_drawResult hbegun rfl (by simp [Instr.command])
  | portPullup value => exact answers_memWrite16 hbegun rfl

end

theorem lifecycleCheck_beginInit_eq_none_iff {skip : Bool} {s : State} :
    lifecycleCheck (.beginInit skip) s = none ↔ s.configured = true ∧ s.begun = false := by
  cases hconfigured : s.configured <;> simp [lifecycleCheck, hconfigured]

/-- What a command answers is one of the answers `Answers` lists. -/
theorem answers_of_exec {i : Instr} {s t : State} (h : exec i s = .next t) : Answers i s t := by
  obtain ⟨kind, hcheck, rfl⟩ | ⟨hcheck, rfl⟩ := exec_cases h
  · exact .fault kind hcheck
  · cases i with
    | configure sel code speed => exact .configure sel code speed rfl (by simpa [lifecycleCheck] using hcheck)
    | setSpeed hz => exact .setSpeed hz rfl
    | beginInit skip =>
      obtain ⟨hconfigured, hbegun⟩ := lifecycleCheck_beginInit_eq_none_iff.mp hcheck
      exact .beginInit skip rfl hconfigured hbegun
    | _ =>
      have hbegun : s.begun = true := by simpa [lifecycleCheck] using hcheck
      exact answers_ruleOf hbegun (by simp [Instr.command]) (by simp [Instr.command]) (by simp [Instr.command])

end Sys2Proof.Proofs
end

section
/-! What BEGIN leaves (40_configuration.md R106), the fields of its events and the oracle apart. -/
namespace Sys2Proof.Proofs
open Sys2Proof.Machine

theorem beginRule_eq_of_bus_fields (skip : Bool) (s : State) :
    beginRule skip s = { s with
      shadowDirection := 0xFFFF
      shadowOutput := 0x0000
      begun := true
      csLevel := true
      reservationHeld := s.reservationHeld && s.transactionSpeed == 0
      history := (beginRule skip s).history
      oracle := (beginRule skip s).oracle
      drawCount := (beginRule skip s).drawCount } := by
  simp [beginRule_eq, beginAfterControl, beginPrelude_eq, afterFrame]

end Sys2Proof.Proofs
end

section
/-! A property that every command keeps, and one that every step keeps: each is shown once, answer by answer. -/
namespace Sys2Proof.Proofs
open Sys2Proof.Machine Sys2Proof.Claims

/-- `P` holds after every answer of a command that runs where `P` holds. -/
structure KeptByCommands (P : State → Prop) : Prop where
  fault (s : State) (kind : FaultKind) (w : CommandWord) (h : P s) : P (marked s kind w)
  configure (s : State) (sel : Half) (code : Byte) (speed : Speed) (hbegun : s.begun = false) (h : P s) :
    P (configureRule sel code speed s)
  setSpeed (s : State) (hz : Speed) (h : P s) : P (setSpeedRule hz s)
  beginInit (s : State) (skip : Bool) (hconfigured : s.configured = true) (hbegun : s.begun = false) (h : P s) :
    P (beginRule skip s)
  quiet (s : State) (output result : Half) (drawCount : Nat) (hbegun : s.begun = true) (h : P s) :
    P { s with shadowOutput := output, result := result, drawCount := drawCount }
  frame (s : State) (direction output result : Half) (sent : List Byte) (hbegun : s.begun = true)
    (hsent : IsFrameOf s sent) (h : P s) :
    P (writeResult result (afterFrame { s with shadowDirection := direction, shadowOutput := output } sent))

theorem KeptByCommands.exec {P : State → Prop} (hkept : KeptByCommands P) {i : Instr} {s t : State} (h : P s)
    (hexec : exec i s = .next t) : P t := by
  cases answers_of_exec hexec with
  | fault kind _ => exact hkept.fault s kind _ h
  | configure sel code speed _ hbegun => exact hkept.configure s sel code speed hbegun h
  | setSpeed hz _ => exact hkept.setSpeed s hz h
  | beginInit skip _ hconfigured hbegun => exact hkept.beginInit s skip hconfigured hbegun h
  | quiet output result drawCount hbegun _ _ _ => exact hkept.quiet s output result drawCount hbegun h
  | frame direction output result sent hbegun _ hsent _ _ _ =>
    exact hkept.frame s direction output result sent hbegun hsent h

/-- `P` is kept by every command, holds after every reset, and does not look at the host's moves. -/
structure KeptBySteps (P : State → Prop) : Prop extends KeptByCommands P where
  hostMoves (s : State) (moves : List HostMove) (h : P s) : P { s with hostMoves := moves }
  reset (s : State) : P (resetBlock s)

theorem KeptBySteps.step {P : State → Prop} (hkept : KeptBySteps P) {s t : State} (h : P s)
    (hstep : step s = .next t) : P t := by
  obtain ⟨-, rfl⟩ | ⟨rest, -, rfl⟩ | ⟨w, rest, e, -, -, -, rfl⟩ | ⟨w, rest, i, -, -, -, hexec⟩ := step_cases hstep
  · exact h
  · exact hkept.reset _
  · exact hkept.fault _ _ w (hkept.hostMoves s rest h)
  · exact hkept.exec (hkept.hostMoves s rest h) hexec

end Sys2Proof.Proofs
end


section
/-! The opcodes agree with the hardware address and the addressing mode (10_state.md R28; 30_encoding.md R79). -/
namespace Sys2Proof.Proofs
open Sys2Proof.Machine

/-- Past the bit shifted in, a field of a shifted word is the field one bit lower of the word. -/
theorem extractLsb'_shiftLeft_one {n : Nat} (x : BitVec n) (k len : Nat) (h : k + 1 + len ≤ n) :
    (x <<< 1).extractLsb' (k + 1) len = x.extractLsb' k len := by
  ext j hj
  simp [show k + 1 + j < n by omega, show k + j < n by omega, show k + 1 + j - 1 = k + j by omega]

theorem toNat_shiftLeft_one {code : Byte} (hcode : code.toNat ≤ 0x27) : (code <<< 1).toNat = 2 * code.toNat := by
  rw [BitVec.toNat_shiftLeft]
  omega

theorem toNat_shiftLeft_one_or_one {code : Byte} (hcode : code.toNat ≤ 0x27) :
    (code <<< 1 ||| 0x01).toNat = 2 * code.toNat + 1 := by
  have hdouble : 2 * code.toNat = code.toNat <<< 1 := by omega
  rw [BitVec.toNat_or, toNat_shiftLeft_one hcode, hdouble]
  exact (Nat.shiftLeft_add_eq_or_of_lt (by decide) _).symm

theorem high_of_validCode {code : Byte} (hcode : 0x20 ≤ code.toNat ∧ code.toNat ≤ 0x27) :
    code.extractLsb' 3 4 = 4 := by
  rw [← BitVec.toNat_inj, BitVec.extractLsb'_toNat, Nat.shiftRight_eq_div_pow]
  simp
  omega

theorem toNat_low_of_validCode {code : Byte} (hcode : 0x20 ≤ code.toNat ∧ code.toNat ≤ 0x27) :
    code.toNat = 0x20 + (code.extractLsb' 0 3).toNat := by
  rw [BitVec.extractLsb'_toNat]
  simp
  omega

/-- R101, R102: a valid code turns addressing on, and gives the address and the opcodes. -/
theorem configureRule_of_validCode {code : Byte} (hcode : 0x20 ≤ code.toNat ∧ code.toNat ≤ 0x27) (sel : Half)
    (speed : Speed) (s : State) :
    (configureRule sel code speed s).addressingEnabled = true
      ∧ (configureRule sel code speed s).hardwareAddress = code.extractLsb' 0 3
      ∧ (configureRule sel code speed s).readOpcode = code <<< 1 ||| 0x01
      ∧ (configureRule sel code speed s).writeOpcode = code <<< 1 := by
  rw [configureRule_eq]
  exact ⟨decide_eq_true hcode, if_pos hcode, if_pos hcode, if_pos hcode⟩

/-- R101, R102: any other code turns addressing off. -/
theorem configureRule_of_not_validCode {code : Byte} (hcode : ¬ (0x20 ≤ code.toNat ∧ code.toNat ≤ 0x27)) (sel : Half)
    (speed : Speed) (s : State) :
    (configureRule sel code speed s).addressingEnabled = false
      ∧ (configureRule sel code speed s).hardwareAddress = 0
      ∧ (configureRule sel code speed s).readOpcode = 0x01
      ∧ (configureRule sel code speed s).writeOpcode = 0x00 := by
  rw [configureRule_eq]
  exact ⟨decide_eq_false hcode, if_neg hcode, if_neg hcode, if_neg hcode⟩

theorem opcodesAgree_of_addressing_off {s : State} (henabled : s.addressingEnabled = false)
    (haddress : s.hardwareAddress = 0) (hread : s.readOpcode = 0x01) (hwrite : s.writeOpcode = 0x00) :
    opcodesAgree s := by
  simp [opcodesAgree, henabled, haddress, hread, hwrite]

theorem opcodesAgree_configureRule (sel : Half) (code : Byte) (speed : Speed) (s : State) :
    opcodesAgree (configureRule sel code speed s) := by
  by_cases hcode : 0x20 ≤ code.toNat ∧ code.toNat ≤ 0x27
  · obtain ⟨henabled, haddress, hread, hwrite⟩ := configureRule_of_validCode hcode sel speed s
    have hbits : (code <<< 1).extractLsb' 1 3 = code.extractLsb' 0 3 :=
      extractLsb'_shiftLeft_one code 0 3 (by decide)
    have hfixed : (code <<< 1).extractLsb' 4 4 = 4 :=
      (extractLsb'_shiftLeft_one code 3 4 (by decide)).trans (high_of_validCode hcode)
    simp [opcodesAgree, henabled, haddress, hread, hwrite, hbits, hfixed]
  · obtain ⟨henabled, haddress, hread, hwrite⟩ := configureRule_of_not_validCode hcode sel speed s
    exact opcodesAgree_of_addressing_off henabled haddress hread hwrite

/-- Only CONFIGURE and a reset write the fields the invariant speaks of. -/
theorem opcodesAgree_keptBySteps : KeptBySteps opcodesAgree where
  fault _ _ _ h := h
  configure s sel code speed _ _ := opcodesAgree_configureRule sel code speed s
  setSpeed _ _ h := h
  beginInit s skip _ _ h := by
    rw [beginRule_eq_of_bus_fields]
    exact h
  quiet _ _ _ _ _ h := h
  frame _ _ _ _ _ _ _ h := h
  hostMoves _ _ h := h
  reset _ := opcodesAgree_of_addressing_off rfl rfl rfl rfl

/-- Settles O48: CONFIGURE makes the two opcodes from the code it takes the address from, and a reset turns addressing off. -/
theorem everyStepKeepsOpcodesAgreeing : Obligations.EveryStepKeepsOpcodesAgreeing :=
  fun _ _ h hstep => opcodesAgree_keptBySteps.step h hstep

/-- Settles O15: an enabled code is 0x20 and the address, so its opcodes are twice that, with the low bit 1 for a read. -/
theorem opcodeBytesLayout : Obligations.OpcodeBytesLayout := by
  intro sel code speed s hbegun
  refine ⟨configureRule sel code speed s, exec_configure_of_not_begun hbegun, ?_⟩
  by_cases hcode : 0x20 ≤ code.toNat ∧ code.toNat ≤ 0x27
  · obtain ⟨henabled, haddress, hread, hwrite⟩ := configureRule_of_validCode hcode sel speed s
    have hcodeBits := toNat_low_of_validCode hcode
    have hreadBits := toNat_shiftLeft_one_or_one hcode.2
    have hwriteBits := toNat_shiftLeft_one hcode.2
    rw [henabled, haddress, hread, hwrite]
    exact ⟨fun _ => ⟨by omega, by omega⟩, nofun⟩
  · obtain ⟨henabled, haddress, hread, hwrite⟩ := configureRule_of_not_validCode hcode sel speed s
    rw [henabled, haddress, hread, hwrite]
    exact ⟨nofun, fun _ => ⟨rfl, rfl, rfl⟩⟩

end Sys2Proof.Proofs
end

section
/-! The transaction speed within the maximum (10_state.md R29). -/
namespace Sys2Proof.Proofs
open Sys2Proof.Machine

theorem clampSpeed_le (p : Config.Params) (hz : Speed) : clampSpeed p hz ≤ p.maxSpeedHz := by
  unfold clampSpeed
  split
  case isTrue hle => exact hle
  case isFalse => exact BitVec.le_refl _

theorem speedLegal_of_speed_zero {s : State} (hspeed : s.transactionSpeed = 0) : speedLegal s := by
  rw [speedLegal, hspeed]
  exact Nat.zero_le _

/-- CONFIGURE and SET_SPEED clamp the speed they write. -/
theorem speedLegal_keptBySteps : KeptBySteps speedLegal where
  fault _ _ _ h := h
  configure s _ _ speed _ _ := clampSpeed_le s.params speed
  setSpeed s hz _ := clampSpeed_le s.params hz
  beginInit s skip _ _ h := by
    rw [beginRule_eq_of_bus_fields]
    exact h
  quiet _ _ _ _ _ h := h
  frame _ _ _ _ _ _ _ h := h
  hostMoves _ _ h := h
  reset _ := speedLegal_of_speed_zero rfl

/-- Settles O49: every speed a step writes is clamped or 0. -/
theorem everyStepKeepsSpeedLegal : Obligations.EveryStepKeepsSpeedLegal :=
  fun _ _ h hstep => speedLegal_keptBySteps.step h hstep

end Sys2Proof.Proofs
end

section
/-! The bus at rest between commands (10_state.md R37, R38). -/
namespace Sys2Proof.Proofs
open Sys2Proof.Machine

theorem busAtRest_of_not_begun {s : State} (hheld : s.reservationHeld = false) (hbegun : s.begun = false) :
    busAtRest s :=
  ⟨hheld, fun h => absurd (hbegun.symm.trans h) Bool.false_ne_true⟩

/-- Every frame ends with select high and releases what it reserved. -/
theorem busAtRest_afterFrame {s : State} (hheld : s.reservationHeld = false) (sent : List Byte) :
    busAtRest (afterFrame s sent) :=
  ⟨by rw [afterFrame_reservationHeld, hheld, Bool.false_and], fun _ => afterFrame_csLevel s sent⟩

theorem busAtRest_keptBySteps : KeptBySteps busAtRest where
  fault _ _ _ h := h
  configure _ _ _ _ _ h := h
  setSpeed _ _ h := h
  beginInit s skip _ _ h := by
    rw [beginRule_eq_of_bus_fields]
    exact ⟨by rw [h.1, Bool.false_and], fun _ => rfl⟩
  quiet _ _ _ _ _ h := h
  frame s _ _ _ sent _ _ h := busAtRest_afterFrame h.1 sent
  hostMoves _ _ h := h
  reset _ := busAtRest_of_not_begun rfl rfl

/-- Settles O50: each frame closes what it opens, and BEGIN drives select high. -/
theorem everyStepLeavesBusAtRest : Obligations.EveryStepLeavesBusAtRest :=
  fun _ _ h hstep => busAtRest_keptBySteps.step h hstep

end Sys2Proof.Proofs
end

section
/-! The order of the lifecycle (60_exceptions.md R184; 70_reset_and_hazards.md R204). -/
namespace Sys2Proof.Proofs
open Sys2Proof.Machine

theorem lifecycleOrdered_of_begun {s : State} (hconfigured : s.configured = true) (hbegun : s.begun = true) :
    lifecycleOrdered s :=
  ⟨fun _ => hconfigured, fun h => absurd (h.symm.trans hbegun) Bool.false_ne_true⟩

theorem lifecycleOrdered_of_not_begun {s : State} (hbegun : s.begun = false) (hhistory : s.history = []) :
    lifecycleOrdered s :=
  ⟨fun h => absurd (hbegun.symm.trans h) Bool.false_ne_true, fun _ => hhistory⟩

theorem lifecycleOrdered_keptBySteps : KeptBySteps lifecycleOrdered where
  fault _ _ _ h := h
  configure _ _ _ _ hbegun h := lifecycleOrdered_of_not_begun hbegun (h.2 hbegun)
  setSpeed _ _ h := h
  beginInit s skip hconfigured _ _ := by
    rw [beginRule_eq_of_bus_fields]
    exact lifecycleOrdered_of_begun hconfigured rfl
  quiet _ _ _ _ _ h := h
  frame _ _ _ _ _ hbegun _ h := lifecycleOrdered_of_begun (h.1 hbegun) hbegun
  hostMoves _ _ h := h
  reset _ := lifecycleOrdered_of_not_begun rfl rfl

/-- Settles O51: only commands that run after BEGIN, and BEGIN itself, append an event. -/
theorem everyStepKeepsLifecycleOrder : Obligations.EveryStepKeepsLifecycleOrder :=
  fun _ _ h hstep => lifecycleOrdered_keptBySteps.step h hstep

end Sys2Proof.Proofs
end

section
/-! The framing protocol over a history (41_register_access.md R120): a frame leads from between frames to between frames. -/
namespace Sys2Proof.Proofs
open Sys2Proof.Machine

/-- An event the protocol allows leads on from the phase after it. -/
theorem phaseAfter_cons_of_after {r : FrameRules} {p q : BusPhase} {e : Event} (h : p.after r e = some q)
    (es : List Event) : phaseAfter r p (e :: es) = phaseAfter r q es := by
  rw [phaseAfter, h]

/-- Events the protocol allows lead on from the phase they end in. -/
theorem phaseAfter_append_of_eq {r : FrameRules} {p q : BusPhase} {es : List Event} (h : phaseAfter r p es = some q)
    (fs : List Event) : phaseAfter r p (es ++ fs) = phaseAfter r q fs := by
  induction es generalizing p with
  | nil => rw [List.nil_append, Option.some.inj h]
  | cons e rest ih =>
    cases hafter : p.after r e with
    | none => simp [phaseAfter, hafter] at h
    | some p' =>
      rw [phaseAfter_cons_of_after hafter] at h
      rw [List.cons_append, phaseAfter_cons_of_after hafter, ih h]

/-- After the first byte of a frame any bytes are allowed. -/
theorem phaseAfter_xfers (r : FrameRules) (reservation : Bool) {sent : Nat} (hsent : 0 < sent) {tx rx : List Byte}
    (hlength : rx.length = tx.length) :
    phaseAfter r (.selected reservation sent) (List.zipWith .xfer tx rx) =
      some (.selected reservation (sent + tx.length)) := by
  induction tx generalizing rx sent with
  | nil => rfl
  | cons b rest ih =>
    obtain ⟨b', rest', rfl⟩ := List.exists_cons_of_length_eq_add_one hlength
    have hafter : (BusPhase.selected reservation sent).after r (.xfer b b') =
        some (.selected reservation (sent + 1)) := if_neg (by omega)
    rw [List.zipWith_cons_cons, phaseAfter_cons_of_after hafter, ih (Nat.succ_pos sent) (Nat.succ.inj hlength),
      List.length_cons, Nat.succ_add_eq_add_succ]

/-- The bytes of a frame, the first of them an opcode. -/
theorem phaseAfter_frame_xfers {s : State} {sent rx : List Byte} (hsent : IsFrameOf s sent)
    (hlength : rx.length = sent.length) (reservation : Bool) :
    phaseAfter (frameRules s) (.selected reservation 0) (List.zipWith .xfer sent rx) =
      some (.selected reservation sent.length) := by
  obtain ⟨opcode, reg, data, rfl, hopcode, -⟩ := hsent
  obtain ⟨b, rest, rfl⟩ := List.exists_cons_of_length_eq_add_one hlength
  have hafter : (BusPhase.selected reservation 0).after (frameRules s) (.xfer opcode b) =
      some (.selected reservation 1) := if_neg (by rintro ⟨-, hread, hwrite⟩; exact hopcode.elim hread hwrite)
  rw [List.zipWith_cons_cons, phaseAfter_cons_of_after hafter, phaseAfter_xfers _ _ Nat.one_pos (Nat.succ.inj hlength),
    Nat.add_comm 1]
  rfl

theorem IsFrameOf.length {s : State} {sent : List Byte} (h : IsFrameOf s sent) :
    sent.length = 3 ∨ sent.length = 4 := by
  obtain ⟨opcode, reg, data, rfl, -, hdata⟩ := h
  simp only [List.length_cons]
  omega

/-- Select low, the bytes of a frame and select high, from a phase where select low starts a frame. -/
theorem phaseAfter_select_period {s : State} {sent : List Byte} (hsent : IsFrameOf s sent) {p : BusPhase}
    {reservation : Bool} (hp : p.after (frameRules s) (.sel s.selectLine false) = some (.selected reservation 0)) :
    phaseAfter (frameRules s) p
        (.sel s.selectLine false :: (List.zipWith .xfer sent (received s sent) ++ [.sel s.selectLine true])) =
      some (if reservation then .releasing else .idle) := by
  have hhigh : (BusPhase.selected reservation sent.length).after (frameRules s) (.sel s.selectLine true) =
      some (if reservation then .releasing else .idle) := if_pos ⟨rfl, rfl, hsent.length⟩
  rw [phaseAfter_cons_of_after hp,
    phaseAfter_append_of_eq (phaseAfter_frame_xfers hsent (received_length s sent) reservation),
    phaseAfter_cons_of_after hhigh, phaseAfter]

/-- A frame leads from between frames to between frames, with its reservation around it if it takes one. -/
theorem phaseAfter_frameEvents {s : State} {sent : List Byte} (hsent : IsFrameOf s sent) :
    phaseAfter (frameRules s) .idle (frameEvents s sent) = some .idle := by
  by_cases hspeed : s.transactionSpeed = 0
  · have hlow : BusPhase.idle.after (frameRules s) (.sel s.selectLine false) = some (.selected false 0) :=
      if_pos ⟨rfl, rfl⟩
    simpa [frameEvents, hspeed] using phaseAfter_select_period hsent hlow
  · have hreserve : BusPhase.idle.after (frameRules s) (.reserve s.transactionSpeed) = some .reserved := if_neg hspeed
    have hlow : BusPhase.reserved.after (frameRules s) (.sel s.selectLine false) = some (.selected true 0) :=
      if_pos ⟨rfl, rfl⟩
    have hrelease : phaseAfter (frameRules s) .releasing [.release] = some .idle := rfl
    have hperiod := phaseAfter_append_of_eq (phaseAfter_select_period hsent hlow) [.release]
    rw [if_pos rfl, hrelease] at hperiod
    rw [← phaseAfter_cons_of_after hreserve] at hperiod
    simpa [frameEvents, show ¬ s.transactionSpeed = 0#32 from hspeed] using hperiod

end Sys2Proof.Proofs
end

section
/-! The history well framed (41_register_access.md R120; 20_memory.md R57, R61). -/
namespace Sys2Proof.Proofs
open Sys2Proof.Machine

/-- Events that lead from between frames to between frames may follow a well-framed history. -/
theorem wellFramed_of_append {s t : State} {events : List Event} (h : wellFramed s) (hrules : frameRules t = frameRules s)
    (hhistory : t.history = s.history ++ events) (hevents : phaseAfter (frameRules s) .idle events = some .idle) :
    wellFramed t := by
  rw [wellFramed, hrules, hhistory, phaseAfter_append_of_eq h, hevents]

theorem wellFramed_of_history_nil {s : State} (h : s.history = []) : wellFramed s := by
  rw [wellFramed, h, phaseAfter]

theorem wellFramed_afterFrame {s : State} {sent : List Byte} (h : wellFramed s) (hsent : IsFrameOf s sent) :
    wellFramed (afterFrame s sent) :=
  wellFramed_of_append h rfl rfl (phaseAfter_frameEvents hsent)

theorem wellFramed_beginPrelude {s : State} (skip : Bool) (h : wellFramed s) : wellFramed (beginPrelude skip s) := by
  rw [beginPrelude_eq]
  refine wellFramed_of_append h rfl (List.append_assoc _ _ _) ?_
  cases skip <;> simp [phaseAfter, BusPhase.after, afterIdle, frameRules]

theorem wellFramed_beginRule {s : State} (skip : Bool) (h : wellFramed s) : wellFramed (beginRule skip s) := by
  have hcontrol : wellFramed (beginAfterControl skip s) :=
    wellFramed_afterFrame (wellFramed_beginPrelude skip h) ⟨_, _, _, rfl, .inr (by simp [beginPrelude_eq]), .inl rfl⟩
  rw [beginRule_eq]
  exact wellFramed_afterFrame hcontrol ⟨_, _, _, rfl, .inr (by simp [beginAfterControl, beginPrelude_eq]), .inr rfl⟩

/-- CONFIGURE changes what the frames of a history must carry, but before BEGIN there is no event. -/
theorem lifecycleOrdered_and_wellFramed_keptBySteps : KeptBySteps fun s => lifecycleOrdered s ∧ wellFramed s where
  fault s kind w := And.imp_left (lifecycleOrdered_keptBySteps.fault s kind w)
  configure s sel code speed hbegun := fun ⟨hordered, _⟩ =>
    ⟨lifecycleOrdered_keptBySteps.configure s sel code speed hbegun hordered,
      wellFramed_of_history_nil (hordered.2 hbegun)⟩
  setSpeed s hz := And.imp_left (lifecycleOrdered_keptBySteps.setSpeed s hz)
  beginInit s skip hconfigured hbegun :=
    And.imp (lifecycleOrdered_keptBySteps.beginInit s skip hconfigured hbegun) (wellFramed_beginRule skip)
  quiet s output result drawCount hbegun :=
    And.imp_left (lifecycleOrdered_keptBySteps.quiet s output result drawCount hbegun)
  frame s direction output result sent hbegun hsent :=
    And.imp (lifecycleOrdered_keptBySteps.frame s direction output result sent hbegun hsent)
      (fun hframed =>
        wellFramed_afterFrame (s := { s with shadowDirection := direction, shadowOutput := output }) hframed hsent)
  hostMoves s moves := And.imp_left (lifecycleOrdered_keptBySteps.hostMoves s moves)
  reset s := ⟨lifecycleOrdered_keptBySteps.reset s, wellFramed_of_history_nil rfl⟩

/-- Settles O52: every event a step appends is BEGIN's prelude or stands in a whole frame. -/
theorem everyStepKeepsHistoryFramed : Obligations.EveryStepKeepsHistoryFramed :=
  fun _ _ hordered hframed hstep => (lifecycleOrdered_and_wellFramed_keptBySteps.step ⟨hordered, hframed⟩ hstep).2

end Sys2Proof.Proofs
end

section
/-! The whole invariant: at reset and over every step. -/
namespace Sys2Proof.Proofs
open Sys2Proof.Machine

theorem inv_resetWith (p : Config.Params) : Inv (State.resetWith p) :=
  ⟨opcodesAgree_of_addressing_off rfl rfl rfl rfl, speedLegal_of_speed_zero rfl, busAtRest_of_not_begun rfl rfl,
    lifecycleOrdered_of_not_begun rfl rfl, wellFramed_of_history_nil rfl⟩

/-- Settles O47: addressing is off, the speed is 0, and nothing has begun. -/
theorem invariantHoldsAtReset : Obligations.InvariantHoldsAtReset :=
  ⟨inv_resetWith Config.specDefault, inv_resetWith⟩

/-- Settles O53, part by part; the framing of the history takes the lifecycle with it. -/
theorem everyStepKeepsInvariant : Obligations.EveryStepKeepsInvariant := by
  rintro s t ⟨hopcodes, hspeed, hrest, hordered, hframed⟩ hstep
  exact ⟨everyStepKeepsOpcodesAgreeing s t hopcodes hstep, everyStepKeepsSpeedLegal s t hspeed hstep,
    everyStepLeavesBusAtRest s t hrest hstep, everyStepKeepsLifecycleOrder s t hordered hstep,
    everyStepKeepsHistoryFramed s t hordered hframed hstep⟩

end Sys2Proof.Proofs
end

section
/-! Decoding and encoding are inverse (30_encoding.md R71, R73, R74). -/
namespace Sys2Proof.Proofs

theorem dataByte_of_dField {w : CommandWord} {data : Byte} (h : dField w = byteHalf data) : dataByte w = data := by
  rw [dataByte_eq_dField, h]
  ext i hi
  simp [byteHalf, hi, show i < 16 by omega]

theorem dataBit_of_dField {w : CommandWord} {b : Bool} (h : dField w = bitHalf b) : dataBit w = b := by
  rw [dataBit_eq_dField, h]
  cases b <;> rfl

theorem skipBit_of_aField {w : CommandWord} {skip : Bool} (h : aField w = if skip then 1 else 0) :
    skipBit w = skip := by
  have hskip : skipBit w = (aField w).getLsbD 0 := by simp [skipBit, aField]
  rw [hskip, h]
  cases skip <;> rfl

/-- Each operand is read from the field it was packed into. -/
theorem operandsOf_encode (i : Instr) : operandsOf (encode i) i.command = i := by
  cases i with
  | beginInit skip => exact congrArg Instr.beginInit (skipBit_of_aField (aField_pack _ _ _ _))
  | regWrite8 reg data =>
    exact congrArg₂ Instr.regWrite8 (aField_pack _ _ _ _) (dataByte_of_dField (dField_pack _ _ _ _))
  | regWrite8Both reg data =>
    exact congrArg₂ Instr.regWrite8Both (aField_pack _ _ _ _) (dataByte_of_dField (dField_pack _ _ _ _))
  | pinMode pin input =>
    exact congrArg₂ Instr.pinMode (aField_pack _ _ _ _) (dataBit_of_dField (dField_pack _ _ _ _))
  | pinWrite pin level =>
    exact congrArg₂ Instr.pinWrite (aField_pack _ _ _ _) (dataBit_of_dField (dField_pack _ _ _ _))
  | pinWriteFast pin level =>
    exact congrArg₂ Instr.pinWriteFast (aField_pack _ _ _ _) (dataBit_of_dField (dField_pack _ _ _ _))
  | _ => simp [operandsOf, encode, Instr.command]

/-- The row of a command's code accepts the command's word (30_encoding.md R76). -/
theorem encodeAccepted (i : Instr) : Laws.EncodeAccepted.Statement i := by
  cases i with
  | configure sel code speed => exact Laws.EncodeAccepted.configure sel code speed
  | setSpeed hz => exact Laws.EncodeAccepted.setSpeed hz
  | beginInit skip => exact Laws.EncodeAccepted.beginInit skip
  | regRead8 reg => exact Laws.EncodeAccepted.regRead8 reg
  | regRead16 reg => exact Laws.EncodeAccepted.regRead16 reg
  | regWrite8 reg data => exact Laws.EncodeAccepted.regWrite8 reg data
  | regWrite8Both reg data => exact Laws.EncodeAccepted.regWrite8Both reg data
  | regWrite16 reg value => exact Laws.EncodeAccepted.regWrite16 reg value
  | portMode value => exact Laws.EncodeAccepted.portMode value
  | pinMode pin input => exact Laws.EncodeAccepted.pinMode pin input
  | portWrite value => exact Laws.EncodeAccepted.portWrite value
  | pinWrite pin level => exact Laws.EncodeAccepted.pinWrite pin level
  | pinWriteFast pin level => exact Laws.EncodeAccepted.pinWriteFast pin level
  | portUpdate => exact Laws.EncodeAccepted.portUpdate
  | portRead => exact Laws.EncodeAccepted.portRead
  | pinRead pin => exact Laws.EncodeAccepted.pinRead pin
  | pinReadFast pin => exact Laws.EncodeAccepted.pinReadFast pin
  | portPullup value => exact Laws.EncodeAccepted.portPullup value

/-- Settles O2: the row of the command's code accepts its word, and the operands are read back from where they were put. -/
theorem decodeOfEncode : Obligations.DecodeOfEncode := by
  intro i
  obtain ⟨row, hrow, hcommand, haccepts⟩ := encodeAccepted i
  simp only [decode, hrow, haccepts, hcommand, if_true, operandsOf_encode]

/-- Settles O3: a field with no operand is 0 in a word that decodes. -/
theorem encodeOfDecode : Obligations.EncodeOfDecode := fun _ _ => encode_eq_of_decode

theorem decode_of_encode_eq {w : CommandWord} {i : Instr} (h : encode i = w) : decode w = .ok i :=
  h ▸ decodeOfEncode i

/-- Settles O1: each word is the word of the command named. -/
theorem vectorWordsDecode : Obligations.VectorWordsDecode := by
  refine ⟨⟨?_, ?_, ?_, ?_, ?_, ?_⟩, ⟨?_, ?_, ?_, ?_, ?_, ?_⟩, ?_, ?_, ?_, ?_, ?_, ?_⟩
  all_goals exact decode_of_encode_eq rfl

end Sys2Proof.Proofs
end

section
/-! One step, by the host's next move (30_encoding.md R72; 60_exceptions.md R183). -/
namespace Sys2Proof.Proofs
open Sys2Proof.Machine Sys2Proof.Claims

theorem step_of_no_move {s : State} (hmoves : s.hostMoves = []) : step s = .next s := by
  rw [step, takeMove, hmoves]

theorem step_of_command {s : State} {w : CommandWord} {rest : List HostMove} (hmoves : s.hostMoves = .command w :: rest) :
    step s = runWord w { s with hostMoves := rest } := by
  rw [step, takeMove, hmoves]

theorem step_of_reset {s : State} {rest : List HostMove} (hmoves : s.hostMoves = .reset :: rest) :
    step s = .next (resetBlock { s with hostMoves := rest }) := by
  rw [step, takeMove, hmoves]

theorem runWord_of_decode_ok {w : CommandWord} {s : State} {i : Instr} (hfault : s.fault = none)
    (h : decode w = .ok i) : runWord w s = exec i s := by
  rw [runWord, hfault, h]

theorem runWord_of_mark {s : State} {mark : FaultMark} (hfault : s.fault = some mark) (w : CommandWord) :
    runWord w s = .fault (.stopped mark) := by
  rw [runWord, hfault]

/-- Settles O6: the move is taken off, then the word is checked and decoded. -/
theorem stepRunsDecodedCommand : Obligations.StepRunsDecodedCommand := by
  refine ⟨?runs, ?checks⟩
  case runs =>
    intro s w i rest hfault hmoves hdecode
    rw [step_of_command hmoves, runWord_of_decode_ok (s := { s with hostMoves := rest }) hfault hdecode]
  case checks => exact fun s w rest => step_of_command

/-- Settles O7: the mark is the first check on a word, before it is decoded. -/
theorem markedBlockTakesNoCommand : Obligations.MarkedBlockTakesNoCommand := by
  intro s mark w rest hfault hmoves
  rw [step_of_command hmoves, runWord_of_mark (s := { s with hostMoves := rest }) hfault]

/-- Settles O8: no move is the wait. -/
theorem blockWaitsForHost : Obligations.BlockWaitsForHost := fun _ => step_of_no_move

/-- Settles O9: a marked block only waits or is reset. -/
theorem faultMarkIsSticky : Obligations.FaultMarkIsSticky := by
  intro s t mark hfault hstep
  obtain ⟨-, rfl⟩ | ⟨rest, hmoves, rfl⟩ | ⟨_, _, _, -, hclear, -⟩ | ⟨_, _, _, -, hclear, -⟩ := step_cases hstep
  · exact .inl hfault
  · exact .inr ⟨rest, hmoves, rfl⟩
  all_goals cases hfault.symm.trans hclear

/-- Settles O10: only a decode error or a lifecycle fault sets the mark, and the word of the command that was decoded is the
word that was presented. -/
theorem faultHasNoPartialEffect : Obligations.FaultHasNoPartialEffect := by
  intro s t hfault hstep hmarked
  obtain ⟨-, rfl⟩ | ⟨rest, -, rfl⟩ | ⟨w, rest, e, hmoves, -, -, rfl⟩ | ⟨w, rest, i, hmoves, -, hdecode, hexec⟩ :=
    step_cases hstep
  · exact absurd hfault hmarked
  · exact absurd rfl hmarked
  · exact ⟨decodeFaultKind e, w, rest, hmoves, rfl⟩
  · obtain ⟨kind, -, rfl⟩ | ⟨-, rfl⟩ := exec_cases hexec
    · exact ⟨kind, w, rest, hmoves, by rw [encode_eq_of_decode hdecode]⟩
    · exact absurd ((ruleOf_fault i { s with hostMoves := rest }).trans hfault) hmarked

/-- Settles O13: what a reset draws reaches none of these fields. -/
theorem hostResetRestores : Obligations.HostResetRestores := fun s rest hmoves =>
  ⟨resetBlock { s with hostMoves := rest }, step_of_reset hmoves, ⟨rfl, rfl, rfl, rfl, rfl⟩, rfl, rfl, rfl, rfl, rfl, rfl,
    rfl⟩

/-- Settles O45: a command's lifecycle check fails or lets its rule run. -/
theorem everyCommandAnswers : Obligations.EveryCommandAnswers := by
  intro i s
  cases hcheck : lifecycleCheck i s with
  | some kind => exact ⟨_, exec_of_fault hcheck⟩
  | none => exact ⟨_, exec_of_check hcheck⟩

end Sys2Proof.Proofs
end

section
/-! BEGIN and the shadows (40_configuration.md R108): it overwrites both, and its frames carry neither's old value. -/
namespace Sys2Proof.Proofs
open Sys2Proof.Machine

theorem beginRule_shadows (skip : Bool) (s : State) (direction output : Half) :
    beginRule skip { s with shadowDirection := direction, shadowOutput := output } = beginRule skip s := by
  simp only [beginRule_eq, beginAfterControl, beginPrelude_eq]
  rfl

/-- Settles O19: both states run BEGIN's rule, which gives them one state. -/
theorem beginIgnoresOldShadows : Obligations.BeginIgnoresOldShadows := by
  intro skip s d o hconfigured hbegun
  refine ⟨beginRule skip s, exec_beginInit_of_configured hconfigured hbegun, ?_⟩
  rw [exec_beginInit_of_configured (s := { s with shadowDirection := d, shadowOutput := o }) hconfigured hbegun,
    beginRule_shadows]

end Sys2Proof.Proofs
end

section
/-! Reads of a scripted peripheral (41_register_access.md R121; 10_state.md R41). -/
namespace Sys2Proof.Proofs
open Sys2Proof.Machine

/-- The bytes received are the start of a script that is long enough. -/
theorem received_of_script {s : State} {script rest sent : List Byte} (horacle : s.oracle = script ++ rest)
    (hlength : script.length = sent.length) : received s sent = script := by
  rw [received, horacle, ← hlength]
  generalize s.drawCount = n
  clear horacle hlength
  induction script generalizing n with
  | nil => exact rxBytes_zero _ _
  | cons b bs ih => rw [List.cons_append, List.length_cons, rxBytes, ih]

/-- A frame uses up the script of its bytes and draws nothing. -/
theorem afterFrame_of_script {s : State} {script rest sent : List Byte} (horacle : s.oracle = script ++ rest)
    (hlength : script.length = sent.length) :
    (afterFrame s sent).oracle = rest ∧ (afterFrame s sent).drawCount = s.drawCount := by
  simp [horacle, ← hlength]

/-- Settles O26: what a read captures is the third scripted byte, and the fourth where there is a fourth. -/
theorem scriptedBytesAreRead : Obligations.ScriptedBytesAreRead := by
  intro reg b₀ b₁ b₂ b₃ rest s hbegun horacle
  refine ⟨⟨_, NeedsBegin.exec_of_begun (fun _ => rfl) hbegun, ?read16⟩,
    ⟨_, NeedsBegin.exec_of_begun (fun _ => rfl) hbegun, ?read8⟩⟩
  case read16 =>
    have hscript : s.oracle = [b₀, b₁, b₂, b₃] ++ rest := horacle
    have hread := received_of_script (sent := [s.readOpcode, reg, s.params.dummyByte, s.params.dummyByte]) hscript rfl
    rw [ruleOf, regRead16Rule, memRead16_eq, captured, hread]
    exact ⟨rfl, afterFrame_of_script hscript rfl⟩
  case read8 =>
    have hscript : s.oracle = [b₀, b₁, b₂] ++ b₃ :: rest := horacle
    have hread := received_of_script (sent := [s.readOpcode, reg, s.params.dummyByte]) hscript rfl
    rw [ruleOf, regRead8Rule, memRead8_eq, captured, hread]
    exact ⟨rfl, afterFrame_of_script hscript rfl⟩

end Sys2Proof.Proofs
end

section
/-! Reads of one pin (42_pin_port.md R157, R158, R161, R170): a bit of GPIO or of the output shadow. -/
namespace Sys2Proof.Proofs
open Sys2Proof.Machine Sys2Proof.Claims

theorem dZero_and_sZero_iff (w : CommandWord) :
    ((rawCommand w).dZero && (rawCommand w).sZero) = true ↔ dField w = 0 ∧ sField w = 0 := by
  simp

/-- `getBit` is the lane it names, as a 16-bit value. -/
theorem getBit_eq_ite (v : Half) (i : Nat) : getBit v i = if v.getLsbD i then 0x0001 else 0x0000 := by
  ext j hj
  by_cases hlowest : j = 0
  · subst hlowest
    cases hbit : v.getLsbD i <;> simp [getBit, hbit]
  · cases hbit : v.getLsbD i <;> simp [getBit, hlowest]

theorem exec_pinRead_of_gt {pin : Byte} {s : State} (hbegun : s.begun = true) (hpin : 15 < pin.toNat) :
    exec (.pinRead pin) s = .next (drawResult s) := by
  rw [NeedsBegin.exec_of_begun (fun _ => rfl) hbegun, ruleOf, pinReadRule, if_neg (not_legalPin_of_gt hpin)]

theorem exec_pinReadFast_of_gt {pin : Byte} {s : State} (hbegun : s.begun = true) (hpin : 15 < pin.toNat) :
    exec (.pinReadFast pin) s = .next (drawResult s) := by
  rw [NeedsBegin.exec_of_begun (fun _ => rfl) hbegun, ruleOf, pinReadFastRule, if_neg (not_legalPin_of_gt hpin)]

theorem exec_pinReadFast_of_le {pin : Byte} {s : State} (hbegun : s.begun = true) (hpin : pin.toNat ≤ 15) :
    exec (.pinReadFast pin) s =
      .next { s with result := if s.shadowOutput.getLsbD pin.toNat then 0x0001 else 0x0000 } := by
  rw [NeedsBegin.exec_of_begun (fun _ => rfl) hbegun, ruleOf, pinReadFastRule, if_pos (legalPin_of_le hpin),
    getBit_eq_ite, writeResult]

/-- A legal pin is read from the whole of GPIO. -/
theorem oneFrame_pinRead {pin : Byte} {s : State} (hbegun : s.begun = true) (hpin : pin.toNat ≤ 15) :
    OneFrame (.pinRead pin) s s [s.readOpcode, 0x12, s.params.dummyByte, s.params.dummyByte]
      (fun rx t => { t with
        result := if (rx.getD 3 0 ++ rx.getD 2 0 : Half).getLsbD pin.toNat then 0x0001 else 0x0000 }) := by
  refine oneFrame_of_exec ?_
  rw [NeedsBegin.exec_of_begun (fun _ => rfl) hbegun, ← fromWire_captured_of_length_four rfl, ruleOf, pinReadRule,
    if_pos (legalPin_of_le hpin), memRead16_eq, ← getBit_eq_ite]
  rfl

/-- Settles O35: a legal pin reads GPIO and keeps one bit of it; any other draws. -/
theorem pinReadReadsOnePin : Obligations.PinReadReadsOnePin := by
  refine ⟨?word, fun pin s => ⟨?fault, ?outOfRange, ?frame⟩⟩
  case word => exact codeSpells_of_command .pinRead dZero_and_sZero_iff (fun w => rfl)
  case fault => exact NeedsBegin.exec_of_not_begun (fun _ => rfl)
  case outOfRange => exact fun hbegun hpin => ⟨_, exec_pinRead_of_gt hbegun hpin⟩
  case frame => exact oneFrame_pinRead

/-- Settles O36: a legal pin is a lane of the output shadow; any other draws. -/
theorem pinReadFastReadsShadow : Obligations.PinReadFastReadsShadow := by
  refine ⟨?word, fun pin s => ⟨?fault, ?outOfRange, ?lane⟩⟩
  case word => exact codeSpells_of_command .pinReadFast dZero_and_sZero_iff (fun w => rfl)
  case fault => exact NeedsBegin.exec_of_not_begun (fun _ => rfl)
  case outOfRange => exact fun hbegun hpin => ⟨_, exec_pinReadFast_of_gt hbegun hpin⟩
  case lane => exact exec_pinReadFast_of_le

/-- Settles O39: the fast read takes the lane that the fast write set. -/
theorem fastWriteThenFastRead : Obligations.FastWriteThenFastRead := by
  intro pin level s hbegun hpin
  refine ⟨_, _, exec_pinWriteFast_of_le hbegun hpin, exec_pinReadFast_of_le hbegun hpin, ?result, rfl⟩
  case result =>
    have hlane : (setBit s.shadowOutput pin.toNat level).getLsbD pin.toNat = level := by
      rw [getLsbD_setBit hpin, if_pos rfl]
    simp only [hlane]

/-- Settles O40: PORT_UPDATE writes the port as PIN_WRITE does once the shadow has its new value. -/
theorem pinWriteIsFastWriteThenUpdate : Obligations.PinWriteIsFastWriteThenUpdate := by
  intro pin level s hbegun hpin
  exact ⟨_, _, exec_pinWriteFast_of_le hbegun hpin, NeedsBegin.exec_of_begun (i := .portUpdate) (fun _ => rfl) hbegun,
    exec_pinWrite_of_le hbegun hpin⟩

end Sys2Proof.Proofs
end

section
/-! A command that writes a shadow and the port sends the shadow's new value (42_pin_port.md R171). -/
namespace Sys2Proof.Proofs
open Sys2Proof.Machine Sys2Proof.Claims

theorem frameEvents_eq_frame (s : State) (sent : List Byte) : frameEvents s sent = frame s sent (received s sent) := by
  by_cases hspeed : s.transactionSpeed = 0#32 <;> simp [frameEvents, frame, hspeed]

/-- The frame of a command that writes the direction shadow. -/
theorem sends_shadowDirection {i : Instr} {s t : State} {v : Half} (hrule : exec i s = .next (writeDirection v s))
    (h : exec i s = .next t) :
    ∃ rx, rx.length = 4 ∧ t.history = s.history ++ frame s
      [s.writeOpcode, 0x00, t.shadowDirection.extractLsb' 0 8, t.shadowDirection.extractLsb' 8 8] rx := by
  obtain rfl : writeDirection v s = t := Host.Outcome.next.inj (hrule.symm.trans h)
  rw [writeDirection_eq]
  exact ⟨_, received_length _ _, congrArg (s.history ++ ·) (frameEvents_eq_frame _ _)⟩

/-- The frame of a command that writes the output shadow and the port. -/
theorem sends_shadowOutput {i : Instr} {s t : State} {v : Half} (hrule : exec i s = .next (writeOutput v s))
    (h : exec i s = .next t) :
    ∃ rx, rx.length = 4 ∧ t.history = s.history ++ frame s
      [s.writeOpcode, portAddress s, t.shadowOutput.extractLsb' 0 8, t.shadowOutput.extractLsb' 8 8] rx := by
  obtain rfl : writeOutput v s = t := Host.Outcome.next.inj (hrule.symm.trans h)
  rw [writeOutput_eq]
  exact ⟨_, received_length _ _, congrArg (s.history ++ ·) (frameEvents_eq_frame _ _)⟩

theorem getLsbD_setBit_of_ne {i j : Nat} (hi : i ≤ 15) (hj : j ≠ i) (v : Half) (b : Bool) :
    (setBit v i b).getLsbD j = v.getLsbD j := by
  rw [getLsbD_setBit hi, if_neg hj]

theorem pinModeRule_other_lane {pin : Byte} {j : Nat} (hj : j ≠ pin.toNat) (input : Bool) (s : State) :
    (pinModeRule pin input s).shadowDirection.getLsbD j = s.shadowDirection.getLsbD j := by
  by_cases hpin : pin.toNat ≤ 15
  · rw [pinModeRule, if_pos (legalPin_of_le hpin), writeDirection_eq, afterFrame_shadowDirection]
    exact getLsbD_setBit_of_ne hpin hj _ _
  · rw [pinModeRule, if_neg (not_legalPin_of_gt (Nat.lt_of_not_le hpin))]

theorem pinWriteRule_other_lane {pin : Byte} {j : Nat} (hj : j ≠ pin.toNat) (level : Bool) (s : State) :
    (pinWriteRule pin level s).shadowOutput.getLsbD j = s.shadowOutput.getLsbD j := by
  by_cases hpin : pin.toNat ≤ 15
  · rw [pinWriteRule, if_pos (legalPin_of_le hpin), writeOutput_eq, afterFrame_shadowOutput]
    exact getLsbD_setBit_of_ne hpin hj _ _
  · rw [pinWriteRule, if_neg (not_legalPin_of_gt (Nat.lt_of_not_le hpin))]

/-- Settles O38: the frame is made from the state that has the new shadow, and `setBit` writes one lane of it. -/
theorem writtenValueEqualsShadow : Obligations.WrittenValueEqualsShadow := by
  refine ⟨?direction, ?output, fun pin b s t j hj => ⟨fun h => ?directionLane, fun h => ?outputLane⟩⟩
  case direction =>
    rintro i s t hbegun h (hcommand | ⟨pin, input, rfl, hpin⟩)
    · cases i with
      | portMode value => exact sends_shadowDirection (exec_portMode hbegun) h
      | _ => cases hcommand
    · exact sends_shadowDirection (exec_pinMode_of_le hbegun hpin) h
  case output =>
    rintro i s t hbegun h (hcommand | ⟨pin, level, rfl, hpin⟩)
    · cases i with
      | portWrite value => exact sends_shadowOutput (exec_portWrite hbegun) h
      | _ => cases hcommand
    · exact sends_shadowOutput (exec_pinWrite_of_le hbegun hpin) h
  case directionLane =>
    obtain ⟨kind, -, rfl⟩ | ⟨-, rfl⟩ := exec_cases h
    · rfl
    · exact pinModeRule_other_lane hj b s
  case outputLane =>
    obtain ⟨kind, -, rfl⟩ | ⟨-, rfl⟩ := exec_cases h
    · rfl
    · exact pinWriteRule_other_lane hj b s

end Sys2Proof.Proofs
end

section
/-! The event history and the transactions in it (10_state.md R40, R42; 20_memory.md R56, R58). -/
namespace Sys2Proof.Proofs
open Sys2Proof.Machine Sys2Proof.Claims

/-- BEGIN's events follow the history so far: its prelude and its two frames are each appended. -/
theorem history_prefix_beginRule (skip : Bool) (s : State) : s.history <+: (beginRule skip s).history := by
  have hprelude : s.history <+: (beginPrelude skip s).history := by
    rw [beginPrelude_eq]
    exact ⟨_, (List.append_assoc _ _ _).symm⟩
  have hcontrol : (beginPrelude skip s).history <+: (beginAfterControl skip s).history := List.prefix_append _ _
  rw [beginRule_eq]
  exact (hprelude.trans hcontrol).trans (List.prefix_append _ _)

/-- What a history starts with stays its start. -/
theorem history_prefix_keptByCommands (past : List Event) : KeptByCommands fun s => past <+: s.history where
  fault _ _ _ h := h
  configure _ _ _ _ _ h := h
  setSpeed _ _ h := h
  beginInit s skip _ _ h := h.trans (history_prefix_beginRule skip s)
  quiet _ _ _ _ _ h := h
  frame _ _ _ _ _ _ _ h := h.trans (List.prefix_append _ _)

/-- Settles O42: the history so far is a start that every command keeps. -/
theorem historyOnlyGrows : Obligations.HistoryOnlyGrows := by
  intro i s t h
  obtain ⟨events, hevents⟩ := (history_prefix_keptByCommands s.history).exec List.prefix_rfl h
  exact ⟨events, hevents.symm⟩

theorem countP_selectsLow_frameEvents (s : State) (sent : List Byte) :
    (frameEvents s sent).countP Event.selectsLow = 1 := by
  have hxfers : (List.zipWith Event.xfer sent (received s sent)).countP Event.selectsLow = 0 := by
    simp [List.countP_eq_zero, ← List.map_uncurry_zip_eq_zipWith, Event.selectsLow]
  by_cases hspeed : s.transactionSpeed = 0#32 <;>
    simp [frameEvents, hspeed, hxfers, Event.selectsLow]

theorem transactionCount_afterFrame (s : State) (sent : List Byte) :
    transactionCount (afterFrame s sent) = transactionCount s + 1 := by
  rw [transactionCount, afterFrame_history, List.countP_append, countP_selectsLow_frameEvents, transactionCount]

theorem transactionCount_beginPrelude (skip : Bool) (s : State) :
    transactionCount (beginPrelude skip s) = transactionCount s := by
  cases skip <;> simp [beginPrelude_eq, transactionCount, Event.selectsLow]

theorem transactionCount_beginRule (skip : Bool) (s : State) :
    transactionCount (beginRule skip s) = transactionCount s + 2 := by
  have hcontrol : transactionCount (beginAfterControl skip s) = transactionCount (beginPrelude skip s) + 1 :=
    transactionCount_afterFrame _ _
  have hdirection : transactionCount (beginRule skip s) = transactionCount (beginAfterControl skip s) + 1 := by
    rw [beginRule_eq]
    exact transactionCount_afterFrame _ _
  rw [hdirection, hcontrol, transactionCount_beginPrelude]

/-- Settles O43: a frame selects the peripheral once, and only BEGIN makes two. -/
theorem transactionsPerCommand : Obligations.TransactionsPerCommand := by
  intro i s t hcheck h
  cases answers_of_exec h with
  | fault kind hfault => cases hcheck.symm.trans hfault
  | configure sel code speed hi _ => rw [hi]; rfl
  | setSpeed hz hi => rw [hi]; rfl
  | beginInit skip hi _ _ => rw [hi]; exact transactionCount_beginRule skip s
  | quiet output result drawCount _ hcount _ _ => rw [hcount]; rfl
  | frame direction output result sent _ hcount _ _ _ _ => rw [hcount]; exact transactionCount_afterFrame _ _

end Sys2Proof.Proofs
end

section
/-! Which command writes which field (10_state.md R22, R44). -/
namespace Sys2Proof.Proofs
open Sys2Proof.Machine Sys2Proof.Claims

theorem transactionsOf_of_quiet_command {i : Instr} (h : i.command ∈ [.configure, .setSpeed, .pinWriteFast, .pinReadFast]) :
    transactionsOf i = 0 := by
  cases i with
  | configure | setSpeed | pinWriteFast | pinReadFast => rfl
  | _ => simp [Instr.command] at h

/-- A field that only the commands of `few` may change is as it was after a command outside a longer list. -/
theorem unwritten {x y : Half} {c : Command} {few many : List Command} (h : x = y ∨ c ∈ few) (hsubset : few ⊆ many)
    (hc : c ∉ many) : x = y :=
  h.resolve_right fun hmem => hc (hsubset hmem)

/-- Settles O41: of each answer, the fields it changes and the commands that may give it. -/
theorem fieldsWrittenOnlyByNamedCommands : Obligations.FieldsWrittenOnlyByNamedCommands := by
  intro i s t h
  cases answers_of_exec h with
  | fault kind _ => simp
  | configure sel code speed hi _ => simp [hi, Instr.command, configureRule]
  | setSpeed hz hi => simp [hi, Instr.command, setSpeedRule]
  | beginInit skip hi _ _ =>
    rw [beginRule_eq_of_bus_fields]
    simp [hi, Instr.command]
  | quiet output result drawCount _ _ houtput hresult =>
    exact ⟨fun _ => ⟨rfl, rfl, rfl, rfl, rfl, rfl⟩, fun _ => rfl, fun _ => rfl, unwritten houtput (by decide),
      fun _ => rfl, unwritten hresult (by decide), fun _ => ⟨rfl, rfl, rfl⟩, rfl, rfl⟩
  | frame direction output result sent _ hcount _ hdirection houtput hresult =>
    have hloud := mt transactionsOf_of_quiet_command (by rw [hcount]; exact Nat.one_ne_zero)
    exact ⟨fun _ => ⟨rfl, rfl, rfl, rfl, rfl, rfl⟩, fun _ => rfl, unwritten hdirection (by decide),
      unwritten houtput (by decide), fun _ => rfl, unwritten hresult (by decide), fun hquiet => absurd hquiet hloud,
      rfl, rfl⟩

/-- The select line, the addressing and the lifecycle of `t` are those of `s`, begun. -/
def SelectionHeld (s t : State) : Prop :=
  t.begun = true ∧ t.configured = s.configured ∧ t.selectLine = s.selectLine
    ∧ t.addressingEnabled = s.addressingEnabled ∧ t.hardwareAddress = s.hardwareAddress
    ∧ t.readOpcode = s.readOpcode ∧ t.writeOpcode = s.writeOpcode

/-- The two commands that write these fields raise a fault once BEGIN has run. -/
theorem selectionHeld_keptByCommands (s : State) : KeptByCommands (SelectionHeld s) where
  fault _ _ _ h := h
  configure _ _ _ _ hbegun h := absurd (hbegun.symm.trans h.1) Bool.false_ne_true
  setSpeed _ _ h := h
  beginInit _ _ _ hbegun h := absurd (hbegun.symm.trans h.1) Bool.false_ne_true
  quiet _ _ _ _ _ h := h
  frame _ _ _ _ _ _ _ h := h

/-- Settles O46: a wait, a decode fault and a command hold the selection; what is left is a reset. -/
theorem selectionAndOpcodesConstantAfterBegin : Obligations.SelectionAndOpcodesConstantAfterBegin := by
  intro s t hbegun hstep
  have hheld : SelectionHeld s s := ⟨hbegun, rfl, rfl, rfl, rfl, rfl, rfl⟩
  obtain ⟨-, rfl⟩ | ⟨rest, hmoves, -⟩ | ⟨w, rest, e, -, -, -, rfl⟩ | ⟨w, rest, i, -, -, -, hexec⟩ := step_cases hstep
  · exact .inr hheld
  · exact .inl ⟨rest, hmoves⟩
  · exact .inr hheld
  · exact .inr ((selectionHeld_keptByCommands s).exec (s := { s with hostMoves := rest }) hheld hexec)

end Sys2Proof.Proofs
end

section
/-! Blindness to received bytes (41_register_access.md R128): what a command sends and leaves, RESULT apart, it sends and
leaves from the blind view of the state too. -/
namespace Sys2Proof.Proofs
open Sys2Proof.Machine Sys2Proof.Claims

/-- The blind view after `f` depends on the blind view before it alone. -/
def Blind (f : State → State) : Prop := ∀ s, blindView (f s) = blindView (f (blindView s))

theorem Blind.comp {f g : State → State} (hg : Blind g) (hf : Blind f) : Blind fun s => g (f s) := by
  intro s
  calc blindView (g (f s)) = blindView (g (blindView (f s))) := hg _
    _ = blindView (g (blindView (f (blindView s)))) := by rw [hf s]
    _ = blindView (g (f (blindView s))) := (hg _).symm

theorem blind_ite {c : Prop} [Decidable c] {f g : State → State} (hf : Blind f) (hg : Blind g) :
    Blind fun s => if c then f s else g s := by
  intro s
  split
  · exact hf s
  · exact hg s

/-- RESULT is no part of the blind view. -/
theorem Blind.writeResult {f : State → State} (hf : Blind f) (v : State → Half) :
    Blind fun s => writeResult (v s) (f s) := hf

@[simp] theorem sent_sent (e : Event) : e.sent.sent = e.sent := by cases e <;> rfl

@[simp] theorem map_sent_map_sent (es : List Event) : (es.map Event.sent).map Event.sent = es.map Event.sent := by
  simp [Function.comp_def]

theorem map_sent_zipWith_xfer {tx rx : List Byte} (h : rx.length = tx.length) :
    (List.zipWith Event.xfer tx rx).map Event.sent = tx.map (.xfer · 0) := by
  induction tx generalizing rx with
  | nil => rfl
  | cons b rest ih =>
    obtain ⟨b', rest', rfl⟩ := List.exists_cons_of_length_eq_add_one h
    rw [List.zipWith_cons_cons, List.map_cons, ih (Nat.succ.inj h)]
    rfl

/-- What a frame sends does not depend on the oracle. -/
theorem map_sent_frameEvents (s : State) (sent : List Byte) :
    (frameEvents s sent).map Event.sent = (frameEvents (blindView s) sent).map Event.sent := by
  have hsent (t : State) := map_sent_zipWith_xfer (received_length t sent)
  simp only [frameEvents, List.map_append, hsent]
  rfl

theorem blindView_afterFrame (s : State) (sent : List Byte) :
    blindView (afterFrame s sent) = blindView (afterFrame (blindView s) sent) := by
  have hhistory : (afterFrame s sent).history.map Event.sent =
      (afterFrame (blindView s) sent).history.map Event.sent := by
    simp only [afterFrame_history, List.map_append, map_sent_frameEvents s]
    simp [blindView]
  rw [blindView, hhistory]
  rfl

theorem blind_memRead8 (reg : Byte) : Blind fun s => (memRead8 reg s).2 := by
  intro s
  simp only [memRead8_eq]
  exact blindView_afterFrame s _

theorem blind_memRead16 (reg : Byte) : Blind fun s => (memRead16 reg s).2 := by
  intro s
  simp only [memRead16_eq]
  exact blindView_afterFrame s _

theorem blind_memWrite8 {v : State → Byte} (hv : ∀ s, v (blindView s) = v s) (reg : Byte) :
    Blind fun s => memWrite8 reg (v s) s := by
  intro s
  simp only [memWrite8_eq, hv]
  exact blindView_afterFrame s _

theorem blind_memWritePair (reg b : Byte) : Blind (memWritePair reg b) := by
  intro s
  simp only [memWritePair_eq]
  exact blindView_afterFrame s _

theorem blind_memWrite16 {reg : State → Byte} {v : State → Half} (hreg : ∀ s, reg (blindView s) = reg s)
    (hv : ∀ s, v (blindView s) = v s) : Blind fun s => memWrite16 (reg s) (v s) s := by
  intro s
  simp only [memWrite16_eq, hreg, hv]
  exact blindView_afterFrame s _

theorem blind_writeDirection {v : State → Half} (hv : ∀ s, v (blindView s) = v s) :
    Blind fun s => writeDirection (v s) s := by
  intro s
  simp only [writeDirection_eq, hv]
  exact blindView_afterFrame { s with shadowDirection := v s } _

theorem blind_writeOutput {v : State → Half} (hv : ∀ s, v (blindView s) = v s) :
    Blind fun s => writeOutput (v s) s := by
  intro s
  simp only [writeOutput_eq, hv]
  exact blindView_afterFrame { s with shadowOutput := v s } _

@[simp] theorem blindView_blindView (s : State) : blindView (blindView s) = blindView s := by
  simp [blindView]

theorem blind_id : Blind fun s => s := fun s => (blindView_blindView s).symm

/-- A rule that only writes fields the view shows, from fields the view shows. -/
theorem blind_of_comm {f : State → State} (h : ∀ s, f (blindView s) = blindView (f s)) : Blind f := by
  intro s
  rw [h, blindView_blindView]

/-- A draw shows in RESULT alone. -/
theorem blind_drawResult : Blind drawResult := blind_id

theorem blind_beginPrelude (skip : Bool) : Blind (beginPrelude skip) := by
  intro s
  rw [beginPrelude_eq, beginPrelude_eq]
  simp [blindView]

theorem blind_beginRule (skip : Bool) : Blind (beginRule skip) := by
  have hshadows : Blind fun s => { s with shadowDirection := 0xFFFF, shadowOutput := 0x0000 } :=
    blind_of_comm fun _ => rfl
  have hbegun : Blind fun s => { s with begun := true } := blind_of_comm fun _ => rfl
  have hcontrol : Blind fun s => memWrite8 (registerAddress .ctrl) (controlByte s.params s.addressingEnabled) s :=
    blind_memWrite8 (fun _ => rfl) _
  have hdirection : Blind fun s => memWrite16 (registerAddress .dir) s.shadowDirection s :=
    blind_memWrite16 (fun _ => rfl) (fun _ => rfl)
  exact hbegun.comp (hdirection.comp (hshadows.comp (hcontrol.comp (blind_beginPrelude skip))))

theorem blind_ruleOf (i : Instr) : Blind (ruleOf i) := by
  cases i with
  | configure sel code speed => exact blind_of_comm fun _ => rfl
  | setSpeed hz => exact blind_of_comm fun _ => rfl
  | beginInit skip => exact blind_beginRule skip
  | regRead8 reg => exact (blind_memRead8 reg).writeResult _
  | regRead16 reg => exact (blind_memRead16 reg).writeResult _
  | regWrite8 reg data => exact blind_memWrite8 (fun _ => rfl) reg
  | regWrite8Both reg data => exact blind_memWritePair reg data
  | regWrite16 reg value => exact blind_memWrite16 (fun _ => rfl) (fun _ => rfl)
  | portMode value => exact blind_writeDirection (fun _ => rfl)
  | pinMode pin input => exact blind_ite (blind_writeDirection (fun _ => rfl)) blind_id
  | portWrite value => exact blind_writeOutput (fun _ => rfl)
  | pinWrite pin level => exact blind_ite (blind_writeOutput (fun _ => rfl)) blind_id
  | pinWriteFast pin level => exact blind_ite (blind_of_comm fun _ => rfl) blind_id
  | portUpdate => exact blind_memWrite16 (fun _ => rfl) (fun _ => rfl)
  | portRead => exact (blind_memRead16 _).writeResult _
  | pinRead pin => exact blind_ite ((blind_memRead16 _).writeResult _) blind_drawResult
  | pinReadFast pin => exact blind_ite (blind_id.writeResult _) blind_drawResult
  | portPullup value => exact blind_memWrite16 (fun _ => rfl) (fun _ => rfl)

/-- The lifecycle check looks at `configured` and `begun` alone. -/
theorem lifecycleCheck_congr {s t : State} (hconfigured : t.configured = s.configured) (hbegun : t.begun = s.begun)
    (i : Instr) : lifecycleCheck i t = lifecycleCheck i s := by
  cases i <;> simp only [lifecycleCheck, hconfigured, hbegun]

/-- Settles O44: states that differ in the oracle alone have one blind view. -/
theorem blindToReceivedBytes : Obligations.BlindToReceivedBytes := by
  intro i s oracle drawCount
  have hcongr : lifecycleCheck i (withOracle s oracle drawCount) = lifecycleCheck i s := lifecycleCheck_congr rfl rfl i
  cases hcheck : lifecycleCheck i s with
  | some kind => exact ⟨_, _, exec_of_fault hcheck, exec_of_fault (hcongr.trans hcheck), rfl⟩
  | none =>
    refine ⟨_, _, exec_of_check hcheck, exec_of_check (hcongr.trans hcheck), ?_⟩
    rw [blind_ruleOf i s, blind_ruleOf i (withOracle s oracle drawCount)]
    rfl

end Sys2Proof.Proofs
end

section
/-! A register-level write leaves both shadows (42_pin_port.md R163). -/
namespace Sys2Proof.Proofs
open Sys2Proof.Machine

/-- Settles O25: no register-level write is among the commands that may write a shadow. -/
theorem registerWritesLeaveShadows : Obligations.RegisterWritesLeaveShadows := by
  intro i s t hcommand h
  obtain ⟨-, -, hdirection, houtput, -⟩ := fieldsWrittenOnlyByNamedCommands i s t h
  obtain hwrite | hwrite | hwrite := hcommand
  all_goals exact ⟨hdirection (by simp [hwrite]), houtput (by simp [hwrite])⟩

end Sys2Proof.Proofs
end

section
/-! The assembler's lines (30_encoding.md R78): numbers that come from operands fit their fields. -/
namespace Sys2Proof.Proofs
open Sys2Proof.Machine

/-- Fields that are read as numbers are placed as they are. -/
theorem placeFields_toNat (c : Command) (a : Byte) (d : Half) (s : Speed) :
    placeFields c a.toNat d.toNat s.toNat = some (pack c.assignedCode a d s) := by
  rw [placeFields, if_pos ⟨a.isLt, d.isLt, s.isLt⟩]
  simp only [BitVec.ofNat_toNat, BitVec.setWidth_eq]

theorem toNat_byteHalf (data : Byte) : (byteHalf data).toNat = data.toNat :=
  BitVec.toNat_setWidth_of_le (by decide)

theorem toNat_bitHalf (b : Bool) : (bitHalf b).toNat = b.toNat := by cases b <;> rfl

theorem toNat_bitByte (b : Bool) : (if b then 1 else 0 : Byte).toNat = b.toNat := by cases b <;> rfl

/-- A line of a pin command with a bit, the bit given as a number. -/
theorem placeFields_pin_bit (c : Command) (pin : Byte) (b : Bool) :
    placeFields c pin.toNat b.toNat 0 = some (pack c.assignedCode pin (bitHalf b) 0) := by
  rw [← toNat_bitHalf]
  exact placeFields_toNat c pin (bitHalf b) 0

theorem placeFields_byte (c : Command) (reg data : Byte) :
    placeFields c reg.toNat data.toNat 0 = some (pack c.assignedCode reg (byteHalf data) 0) := by
  rw [← toNat_byteHalf]
  exact placeFields_toNat c reg (byteHalf data) 0

/-- Settles O54: each expansion is a command line whose numbers come from the pin, the sentinel or a constant. -/
theorem pseudoInstructionsExpand : Obligations.PseudoInstructionsExpand := fun p pin =>
  ⟨placeFields_pin_bit .pinMode pin true, placeFields_pin_bit .pinMode pin false, placeFields_pin_bit .pinWrite pin true,
    placeFields_pin_bit .pinWrite pin false, placeFields_toNat .portWrite 0 p.sentHigh 0,
    placeFields_toNat .portWrite 0 p.sentLow 0, placeFields_toNat .portUpdate 0 0 0⟩

/-- A register operand stands for its address, however it is written. -/
theorem operandValue_register {o : AsmOperand} {reg : Byte}
    (h : o = .number reg.toNat ∨ ∃ r : RegName, o = .register r ∧ reg = registerAddress r) :
    operandValue o = reg.toNat := by
  obtain rfl | ⟨r, rfl, rfl⟩ := h <;> rfl

/-- The lines with a register operand. -/
theorem registerLines (p : Config.Params) {o : AsmOperand} {reg : Byte} (h : operandValue o = reg.toNat) (data : Byte)
    (value : Half) :
    assemble p (.command .regRead8) [o] = some (encode (.regRead8 reg))
      ∧ assemble p (.command .regRead16) [o] = some (encode (.regRead16 reg))
      ∧ assemble p (.command .regWrite8) [o, .number data.toNat] = some (encode (.regWrite8 reg data))
      ∧ assemble p (.command .regWrite8Both) [o, .number data.toNat] = some (encode (.regWrite8Both reg data))
      ∧ assemble p (.command .regWrite16) [o, .number value.toNat] = some (encode (.regWrite16 reg value)) := by
  simp only [assemble, List.map_cons, List.map_nil, h]
  exact ⟨placeFields_toNat .regRead8 reg 0 0, placeFields_toNat .regRead16 reg 0 0, placeFields_byte .regWrite8 reg data,
    placeFields_byte .regWrite8Both reg data, placeFields_toNat .regWrite16 reg value 0⟩

/-- Settles O55: every line places its operands in the fields that `encode` packs. -/
theorem assemblerLinesStandForWords : Obligations.AssemblerLinesStandForWords := by
  intro p pin code sel value speed b
  refine ⟨⟨?configure, ?setSpeed, ?beginInit⟩, ?registers, ⟨?_, ?_, ?_, ?_, ?_, ?_, ?_⟩, ?_, ?_, ?_, ?_⟩
  case configure => exact placeFields_toNat .configure code sel speed
  case setSpeed => exact placeFields_toNat .setSpeed 0 0 speed
  case beginInit =>
    have hplace := placeFields_toNat .beginInit (if b then 1 else 0) 0 0
    rw [toNat_bitByte] at hplace
    exact hplace
  case registers => exact fun o reg data h => registerLines p (operandValue_register h) data value
  · exact placeFields_toNat .portMode 0 value 0
  · exact placeFields_toNat .portWrite 0 value 0
  · exact placeFields_toNat .portPullup 0 value 0
  · exact placeFields_pin_bit .pinMode pin true
  · exact placeFields_pin_bit .pinMode pin false
  · exact placeFields_pin_bit .pinWrite pin b
  · exact placeFields_pin_bit .pinWriteFast pin b
  · exact placeFields_toNat .portUpdate 0 0 0
  · exact placeFields_toNat .portRead 0 0 0
  · exact placeFields_toNat .pinRead pin 0 0
  · exact placeFields_toNat .pinReadFast pin 0 0

end Sys2Proof.Proofs
end
